-- ==== Sys2Proof/Word.lean ====
section
/-! DEFINITION. The block's data words: the octet (00_scope.md section 6). -/

namespace Sys2Proof

/-- An octet: eight bits, bit 7 the most significant (00_scope.md section 6). -/
abbrev Octet := BitVec 8

end Sys2Proof
end

