-- ==== Sys2Proof/Config.lean ====
section
/-! DEFINITION. What a build of the block fixes: the parameters of R2, the protocol constants of R3, and the
free values of the model. -/

namespace Sys2Proof

/-- The two readings of the moment of COMPLETE (R148). -/
inductive CompleteTrigger where
  /-- The decided bit after the seventh matching `END` bit performs COMPLETE. -/
  | nextBit
  /-- The reaction to the seventh matching `END` bit performs COMPLETE at once. -/
  | sameBit
deriving DecidableEq, Repr

/-- The build parameters that some rule reads (R2). `T_SECONDS` is `Config.tSeconds`. -/
structure Params where
  /-- `T_CYCLES`: clock cycles in one time unit T. -/
  tCycles : Nat
  /-- `QUEUE_DEPTH`: the queue's capacity in octets. -/
  queueDepth : Nat
  /-- `COMPLETE_TRIGGER`. -/
  completeTrigger : CompleteTrigger
deriving DecidableEq, Repr

/-- The legal values of the parameters (R2): `T_CYCLES` and `QUEUE_DEPTH` are at least 1. -/
def Params.legal (p : Params) : Bool := decide (1 ≤ p.tCycles) && decide (1 ≤ p.queueDepth)

/-- The spec's defaults (R2): 16, 16, `NEXT_BIT`. DESIGN CHOICE that the reset state carries them (log entry 2):
unsafe for a claim that rests on these numbers, so claims quantify over the parameters. -/
def Params.defaults : Params := { tCycles := 16, queueDepth := 16, completeTrigger := .nextBit }

namespace Config

/-- `U` = 85 (R3, R62). -/
def u : Octet := 85
/-- `SYNC` = 65 (R3, R63). -/
def sync : Octet := 65
/-- `STX` = 66 (R3, R64). -/
def stx : Octet := 66
/-- `END` = 67 (R3, R67). -/
def endMarker : Octet := 67
/-- `ID_PATTERN` = 0b11010 (R3, R65). -/
def idPattern : BitVec 5 := 0b11010
/-- `MAX_LEN`: the most payload octets of a frame (R3). -/
def maxLen : Nat := 7
/-- Line feed, a terminator (R70). PRESUMED by the spec from general knowledge (G1; log entry 21): unsafe if the
original's line reader delivers another code. -/
def lineFeed : Octet := 0x0A
/-- Carriage return, a terminator (R70). PRESUMED by the spec from general knowledge (G1; log entry 21): unsafe if
the original's line reader delivers another code. -/
def carriageReturn : Octet := 0x0D

/-- The level the host puts on `line_in` in a cycle for which the script gives no input: a FREE VALUE, one for each
cycle. DESIGN CHOICE (log entry 4): safe, nothing constrains it. -/
opaque hostLine : Nat → Bool

/-- `T_SECONDS`: the duration of T, any positive real; no rule reads it (R2; log entry 16). A constant with no value,
so safe. -/
noncomputable opaque tSeconds : Set.Ioi (0 : ℝ)

end Config

end Sys2Proof
end

