-- ==== Sys2Proof/Syntax.lean ====
section
/-! DEFINITION. The rows of opcode_table.json, one constructor each: 15 encoded patterns with their fields, then the
31 state-selected operations, whose operands are registers and input ports and not fields. -/

namespace Sys2Proof

/-- One row of the opcode table. -/
inductive Instr where
  /-- `U`: frame octet 0 (R62). -/
  | u
  /-- `SYNC`: frame octet 1 (R63). -/
  | sync
  /-- `STX`: frame octet 2 (R64). -/
  | stx
  /-- `HEADER`: frame octet 3, `n` the payload length (R65). -/
  | header (n : BitVec 3)
  /-- `PAYLOAD`: a frame octet 4 to 3+len, one character (R66). -/
  | payload (c : Octet)
  /-- `END`: frame octet 4+len (R67). -/
  | endMarker
  /-- `HEADER.RX`: the header octet as the Validator accepts it (R144, R145). -/
  | headerRx (id : BitVec 5) (n : BitVec 3)
  /-- `END.RX`: the end octet as the Validator accepts it, bit 0 free (R147). -/
  | endRx (x : Bool)
  /-- `CHAR.LF`: the terminator line feed (R93, R94). -/
  | charLf
  /-- `CHAR.CR`: the terminator carriage return (R93, R94). -/
  | charCr
  /-- `CHAR.OTHER`: a payload character (R91, R92). -/
  | charOther (c : Octet)
  /-- `GROUP.ZERO`: samples a00b (R130). -/
  | groupZero (a b : Bool)
  /-- `GROUP.ONE`: samples a11b (R130). -/
  | groupOne (a b : Bool)
  /-- `GROUP.DROP01`: samples a01b (R131). -/
  | groupDrop01 (a b : Bool)
  /-- `GROUP.DROP10`: samples a10b (R131). -/
  | groupDrop10 (a b : Bool)
  /-- `F.CHAR` (R91). -/
  | fChar
  /-- `F.CHAR.OVER` (R92). -/
  | fCharOver
  /-- `F.TERM.OK` (R93). -/
  | fTermOk
  /-- `F.TERM.OVERSIZE` (R94). -/
  | fTermOversize
  /-- `F.PUSH` (R96). -/
  | fPush
  /-- `F.STALL` (R97). -/
  | fStall
  /-- `F.SIGNAL` (R98). -/
  | fSignal
  /-- `TX.LOAD` (R111). -/
  | txLoad
  /-- `TX.HOLD` (R112). -/
  | txHold
  /-- `TX.SHIFT` (R113). -/
  | txShift
  /-- `TX.NEXT` (R114). -/
  | txNext
  /-- `TX.IDLE` (R115). -/
  | txIdle
  /-- `TX.WAIT` (R116). -/
  | txWait
  /-- `RX.BEGIN` (R126). -/
  | rxBegin
  /-- `RX.PAUSE` (R127). -/
  | rxPause
  /-- `RX.RESTART` (R128). -/
  | rxRestart
  /-- `RX.SAMPLE` (R129). -/
  | rxSample
  /-- `RX.DECIDE.AGREE` (R130). -/
  | rxDecideAgree
  /-- `RX.DECIDE.DROP` (R131). -/
  | rxDecideDrop
  /-- `V.SYNC` (R142). -/
  | vSync
  /-- `V.STX` (R143). -/
  | vStx
  /-- `V.ID` (R144). -/
  | vId
  /-- `V.LENGTH` (R145). -/
  | vLength
  /-- `V.PAYLOAD` (R146). -/
  | vPayload
  /-- `V.END` (R147). -/
  | vEnd
  /-- `V.COMPLETE` (R149). -/
  | vComplete
  /-- `TICK` (R170). -/
  | tick
  /-- `SIG` (R171). -/
  | sig
  /-- `SIG.BEGIN` (R172). -/
  | sigBegin
  /-- `SIG.ABANDON` (R173). -/
  | sigAbandon
  /-- `SIG.RESTART` (R174). -/
  | sigRestart
deriving DecidableEq, Repr

end Sys2Proof
end

