-- ==== Sys2Proof/WellFormed.lean ====
section
/-! DEFINITION. Which terms of `Instr` stand for a row of the opcode table: the two character fields that exclude the
terminators (R66, R70). Every other field admits every value of its width. -/

namespace Sys2Proof

/-- A character is a terminator iff it is 0x0A or 0x0D (R70). -/
def isTerminator (c : Octet) : Bool := c == Config.lineFeed || c == Config.carriageReturn

/-- Well-formedness: a payload octet of the send side and a payload character are no terminators (R66, R70). -/
def Instr.wf : Instr → Bool
  | .u => true
  | .sync => true
  | .stx => true
  | .header _ => true
  | .payload c => !isTerminator c
  | .endMarker => true
  | .headerRx _ _ => true
  | .endRx _ => true
  | .charLf => true
  | .charCr => true
  | .charOther c => !isTerminator c
  | .groupZero _ _ => true
  | .groupOne _ _ => true
  | .groupDrop01 _ _ => true
  | .groupDrop10 _ _ => true
  | .fChar => true
  | .fCharOver => true
  | .fTermOk => true
  | .fTermOversize => true
  | .fPush => true
  | .fStall => true
  | .fSignal => true
  | .txLoad => true
  | .txHold => true
  | .txShift => true
  | .txNext => true
  | .txIdle => true
  | .txWait => true
  | .rxBegin => true
  | .rxPause => true
  | .rxRestart => true
  | .rxSample => true
  | .rxDecideAgree => true
  | .rxDecideDrop => true
  | .vSync => true
  | .vStx => true
  | .vId => true
  | .vLength => true
  | .vPayload => true
  | .vEnd => true
  | .vComplete => true
  | .tick => true
  | .sig => true
  | .sigBegin => true
  | .sigAbandon => true
  | .sigRestart => true

end Sys2Proof
end

