-- ==== Sys2Proof/Decode.lean ====
section
/-! DEFINITION. Reading the encoded patterns of the opcode table and writing them (30_encoding.md section 7). The
patterns of different formats overlap, because the block reads each at a place of its own: so decoding takes the
place, and only the host's table reader `decodeTableWord` reads a word without one. -/

namespace Sys2Proof

/-! ### Places -/

/-- The octet positions of a frame on the send side (R60). -/
inductive OctetPlace where
  | u | sync | stx | header | payload | endMarker
deriving DecidableEq, Repr

/-- The octet positions where the Validator accepts more than the Framer sends (R74). -/
inductive RxPlace where
  | header | endMarker
deriving DecidableEq, Repr

/-- Where a pattern is read: the table's `format` column, with the position for frame octets. -/
inductive Place where
  /-- `frame-octet`. -/
  | octet (p : OctetPlace)
  /-- `frame-octet-receive`. -/
  | octetRx (p : RxPlace)
  /-- `input-character`. -/
  | inputChar
  /-- `sample-group`. -/
  | sampleGroup
deriving DecidableEq, Repr

/-- Why a pattern is no instruction at its place. -/
inductive DecodeError where
  /-- The octet at position 0 is not 0x55. -/
  | notU
  /-- The octet at position 1 is not 0x41. -/
  | notSync
  /-- The octet at position 2 is not 0x42. -/
  | notStx
  /-- Bits 7:3 of the octet at position 3 are not 0b11010. -/
  | notHeader
  /-- A payload octet of the send side is 0x0A or 0x0D. -/
  | terminatorInPayload
  /-- The octet after the payload is not 0x43. -/
  | notEnd
  /-- Bits 7:1 of the received end octet are not 0b0100001. -/
  | notEndRx
  /-- A sample group has four bits: bits 7:4 are not 0. -/
  | notGroup
  /-- The octets end before the frame does. -/
  | frameTooShort
  /-- Octets are left after `END`. -/
  | frameTooLong
deriving DecidableEq, Repr

/-! ### Field helpers -/

/-- The header octet: the two fields of R65 joined. -/
def joinHeader (id : BitVec 5) (n : BitVec 3) : Octet := id ++ n

/-- Bits 7:3 of an octet, the `id` field (R65). -/
def idField (w : Octet) : BitVec 5 := w.extractLsb' 3 5

/-- Bits 2:0 of an octet, the `len` field (R65). -/
def lenField (w : Octet) : BitVec 3 := w.extractLsb' 0 3

/-- Four samples in the order taken, sample 0 leftmost, as the low four bits of a word (30_encoding.md section 7). -/
def groupWord (s0 s1 s2 s3 : Bool) : Octet :=
  0#4 ++ (BitVec.ofBool s0 ++ (BitVec.ofBool s1 ++ (BitVec.ofBool s2 ++ BitVec.ofBool s3)))

/-! ### Decoding at a place -/

/-- A frame octet as the Framer sends it (R62 to R67). -/
def decodeOctet (p : OctetPlace) (w : Octet) : Except DecodeError Instr :=
  match p with
  | .u => if w = Config.u then .ok .u else .error .notU
  | .sync => if w = Config.sync then .ok .sync else .error .notSync
  | .stx => if w = Config.stx then .ok .stx else .error .notStx
  | .header => if idField w = Config.idPattern then .ok (.header (lenField w)) else .error .notHeader
  | .payload => if isTerminator w then .error .terminatorInPayload else .ok (.payload w)
  | .endMarker => if w = Config.endMarker then .ok .endMarker else .error .notEnd

/-- A frame octet as the Validator accepts it: any header (R74(b)), and an end octet of which bit 0 is free
(R67, R74(c)). -/
def decodeOctetRx (p : RxPlace) (w : Octet) : Except DecodeError Instr :=
  match p with
  | .header => .ok (.headerRx (idField w) (lenField w))
  | .endMarker => if w.extractLsb' 1 7 = 0b0100001#7 then .ok (.endRx (w.getLsbD 0)) else .error .notEndRx

/-- A character of `char_data` (R70): total, every octet is one of the three classes. -/
def decodeChar (w : Octet) : Instr :=
  if w = Config.lineFeed then .charLf
  else if w = Config.carriageReturn then .charCr
  else .charOther w

/-- The four samples of a group: the decision looks at samples 1 and 2 only (R130 to R132). -/
def decodeGroup (s0 s1 s2 s3 : Bool) : Instr :=
  match s1, s2 with
  | false, false => .groupZero s0 s3
  | true, true => .groupOne s0 s3
  | false, true => .groupDrop01 s0 s3
  | true, false => .groupDrop10 s0 s3

/-- A word read at a place of the block. Total; a word that is no pattern of the place is rejected by name. -/
def decodeAt (p : Place) (w : Octet) : Except DecodeError Instr :=
  match p with
  | .octet p => decodeOctet p w
  | .octetRx p => decodeOctetRx p w
  | .inputChar => .ok (decodeChar w)
  | .sampleGroup =>
    if w.extractLsb' 4 4 = 0#4 then
      .ok (decodeGroup (w.getLsbD 3) (w.getLsbD 2) (w.getLsbD 1) (w.getLsbD 0))
    else .error .notGroup

/-! ### Whole frames -/

/-- The payload octets and `END` of a frame whose header said `n` (R60, R76). -/
def decodeBody : Nat → List Octet → Except DecodeError (List Instr)
  | _, [] => .error .frameTooShort
  | 0, w :: rest =>
    match decodeOctet .endMarker w, rest with
    | .error e, _ => .error e
    | .ok i, [] => .ok [i]
    | .ok _, _ :: _ => .error .frameTooLong
  | n + 1, w :: rest =>
    match decodeOctet .payload w, decodeBody n rest with
    | .error e, _ => .error e
    | .ok _, .error e => .error e
    | .ok i, .ok is => .ok (i :: is)

/-- A whole frame, octet by octet, as the Framer sends it (R60, R61): total on any list of octets. -/
def decodeFrame : List Octet → Except DecodeError (List Instr)
  | w0 :: w1 :: w2 :: w3 :: rest =>
    match decodeOctet .u w0, decodeOctet .sync w1, decodeOctet .stx w2, decodeOctet .header w3 with
    | .error e, _, _, _ => .error e
    | .ok _, .error e, _, _ => .error e
    | .ok _, .ok _, .error e, _ => .error e
    | .ok _, .ok _, .ok _, .error e => .error e
    | .ok i0, .ok i1, .ok i2, .ok i3 =>
      match decodeBody (lenField w3).toNat rest with
      | .error e => .error e
      | .ok is => .ok (i0 :: i1 :: i2 :: i3 :: is)
  | _ => .error .frameTooShort

/-! ### The host's table reader -/

/-- The instruction a bare octet stands for when nothing says where it is read: the fixed frame octets and the send
header first, then the two terminators, then a sample group for a word below 16, else a payload character.
DESIGN CHOICE (log entry 10): the spec reads no word without its place. -/
def decodeBare (w : Octet) : Instr :=
  if w = Config.u then .u
  else if w = Config.sync then .sync
  else if w = Config.stx then .stx
  else if w = Config.endMarker then .endMarker
  else if idField w = Config.idPattern then .header (lenField w)
  else if isTerminator w then decodeChar w
  else if w.extractLsb' 4 4 = 0#4 then
    decodeGroup (w.getLsbD 3) (w.getLsbD 2) (w.getLsbD 1) (w.getLsbD 0)
  else decodeChar w

/-- The instruction of an encoded row of opcode_table.json, from the row's bits. A row of four bits is a sample group;
a row of eight bits is read by `decodeBare`. No bits, more bits than eight, and a number that does not fit are no
encoded row: the 31 state-selected operations have no encoding (30_encoding.md section 7). -/
def decodeTableWord (nbits w : Nat) : Option Instr :=
  if nbits = 8 ∧ w < 256 then some (decodeBare (BitVec.ofNat 8 w))
  else if nbits = 4 ∧ w < 16 then (decodeAt .sampleGroup (BitVec.ofNat 8 w)).toOption
  else none

/-! ### Encoding -/

/-- The place at which an encoded pattern is read; none for a state-selected operation. -/
def placeOf : Instr → Option Place
  | .u => some (.octet .u)
  | .sync => some (.octet .sync)
  | .stx => some (.octet .stx)
  | .header _ => some (.octet .header)
  | .payload _ => some (.octet .payload)
  | .endMarker => some (.octet .endMarker)
  | .headerRx _ _ => some (.octetRx .header)
  | .endRx _ => some (.octetRx .endMarker)
  | .charLf => some .inputChar
  | .charCr => some .inputChar
  | .charOther _ => some .inputChar
  | .groupZero _ _ => some .sampleGroup
  | .groupOne _ _ => some .sampleGroup
  | .groupDrop01 _ _ => some .sampleGroup
  | .groupDrop10 _ _ => some .sampleGroup
  | .fChar => none
  | .fCharOver => none
  | .fTermOk => none
  | .fTermOversize => none
  | .fPush => none
  | .fStall => none
  | .fSignal => none
  | .txLoad => none
  | .txHold => none
  | .txShift => none
  | .txNext => none
  | .txIdle => none
  | .txWait => none
  | .rxBegin => none
  | .rxPause => none
  | .rxRestart => none
  | .rxSample => none
  | .rxDecideAgree => none
  | .rxDecideDrop => none
  | .vSync => none
  | .vStx => none
  | .vId => none
  | .vLength => none
  | .vPayload => none
  | .vEnd => none
  | .vComplete => none
  | .tick => none
  | .sig => none
  | .sigBegin => none
  | .sigAbandon => none
  | .sigRestart => none

/-- The words of an instruction (opcode_table.json, column `encoding`): one octet for an encoded pattern (a sample
group in its low four bits), none for a state-selected operation. -/
def encode : Instr → List Octet
  | .u => [0b01010101]
  | .sync => [0b01000001]
  | .stx => [0b01000010]
  | .header n => [joinHeader Config.idPattern n]
  | .payload c => [c]
  | .endMarker => [0b01000011]
  | .headerRx id n => [joinHeader id n]
  | .endRx x => [0b0100001#7 ++ BitVec.ofBool x]
  | .charLf => [0b00001010]
  | .charCr => [0b00001101]
  | .charOther c => [c]
  | .groupZero a b => [groupWord a false false b]
  | .groupOne a b => [groupWord a true true b]
  | .groupDrop01 a b => [groupWord a false true b]
  | .groupDrop10 a b => [groupWord a true false b]
  | .fChar => []
  | .fCharOver => []
  | .fTermOk => []
  | .fTermOversize => []
  | .fPush => []
  | .fStall => []
  | .fSignal => []
  | .txLoad => []
  | .txHold => []
  | .txShift => []
  | .txNext => []
  | .txIdle => []
  | .txWait => []
  | .rxBegin => []
  | .rxPause => []
  | .rxRestart => []
  | .rxSample => []
  | .rxDecideAgree => []
  | .rxDecideDrop => []
  | .vSync => []
  | .vStx => []
  | .vId => []
  | .vLength => []
  | .vPayload => []
  | .vEnd => []
  | .vComplete => []
  | .tick => []
  | .sig => []
  | .sigBegin => []
  | .sigAbandon => []
  | .sigRestart => []

/-- The instructions of the frame of a line of characters, in the order of R60. -/
def frameInstrs (cs : List Octet) : List Instr :=
  [.u, .sync, .stx, .header (BitVec.ofNat 3 cs.length)] ++ cs.map .payload ++ [.endMarker]

/-- The octets of the frame of a line of characters (R60, R61). -/
def encodeFrame (cs : List Octet) : List Octet := (frameInstrs cs).flatMap encode

end Sys2Proof
end

