-- ==== Sys2Proof/Machine/State.lean ====
section
/-! DEFINITION. The state of the block: the registers of R11 to R21, grouped by the part that owns them, and the
model's own fields. Plain data. -/

namespace Sys2Proof.Machine

/-! ### Registers -/

/-- `f_state` (R12). -/
inductive FState where
  /-- Taking characters. -/
  | accum
  /-- Pushing the octets of one frame. -/
  | push
  /-- Raising the three signals. -/
  | signal
deriving DecidableEq, Repr

/-- The Framer's registers (R12). -/
structure Framer where
  fState : FState
  /-- Characters typed since the last terminator, 0 to 8. -/
  fLen : BitVec 4
  /-- The first seven of them. -/
  fBuf : Vector Octet 7
  /-- Index of the next frame octet to push. -/
  fIdx : BitVec 4
deriving DecidableEq, Repr

/-- The Transmitter's registers (R14). -/
structure Transmitter where
  txBusy : Bool
  txByte : Octet
  /-- The number of the bit now on the line, 7 first. -/
  txIdx : BitVec 3
  /-- Ticks since that bit was put on the line. -/
  txHold : BitVec 2
  /-- The level of the output line: a register and a port. -/
  lineOut : Bool
deriving DecidableEq, Repr

/-- The Receiver's registers (R15) and the Decided Bit cell (R16). -/
structure Receiver where
  rxStarted : Bool
  /-- Index of the next sample in its group. -/
  rxIdx : BitVec 2
  rxS1 : Bool
  rxS2 : Bool
  dbit : Bool
deriving DecidableEq, Repr

/-- The Validator's registers (R18 to R21). A capture buffer is a bit vector whose index 0 is its most significant
bit (R49), so `int_be` of a buffer is its value as a number. -/
structure Validator where
  count : BitVec 7
  /-- Sub-index of the STX phase. -/
  count2 : BitVec 4
  /-- Sub-index of the ID phase. -/
  count3 : BitVec 3
  /-- Sub-index of the LENGTH phase. -/
  count4 : BitVec 2
  /-- Sub-index of the PAYLOAD phase. -/
  count5 : BitVec 6
  /-- Sub-index of the END phase. -/
  count6 : BitVec 3
  idBuf : BitVec 5
  nBuf : BitVec 3
  messageBuf : BitVec 56
  payloadBits : BitVec 6
  vParked : Bool
  vFault : Bool
deriving DecidableEq, Repr

/-- The architectural state of the block, exactly the registers of R11 to R21 (R10). -/
structure Regs where
  /-- The tick divider (R11). -/
  tdiv : Nat
  framer : Framer
  /-- The queue, oldest octet first (R13). -/
  q : List Octet
  tx : Transmitter
  rx : Receiver
  val : Validator
  /-- The Reset Flag (R17). -/
  resetFlag : Bool
deriving DecidableEq, Repr

/-- R26, Framer rows. -/
def Framer.reset : Framer := { fState := .accum, fLen := 0, fBuf := Vector.replicate 7 0, fIdx := 0 }
/-- R26, Transmitter rows. -/
def Transmitter.reset : Transmitter := { txBusy := false, txByte := 0, txIdx := 0, txHold := 0, lineOut := false }
/-- R26, Receiver rows. -/
def Receiver.reset : Receiver := { rxStarted := false, rxIdx := 0, rxS1 := false, rxS2 := false, dbit := false }
/-- R26, Validator rows: all zero. -/
def Validator.reset : Validator :=
  { count := 0, count2 := 0, count3 := 0, count4 := 0, count5 := 0, count6 := 0, idBuf := 0, nBuf := 0,
    messageBuf := 0, payloadBits := 0, vParked := false, vFault := false }
/-- Every register at its reset value (R26). -/
def Regs.reset : Regs :=
  { tdiv := 0, framer := Framer.reset, q := [], tx := Transmitter.reset, rx := Receiver.reset,
    val := Validator.reset, resetFlag := false }

/-! ### Ports -/

/-- What the host wires to `line_in` in a cycle (R219(f)). -/
inductive LineIn where
  /-- The same instance's `line_out`. -/
  | loopback
  /-- A level from outside. -/
  | level (b : Bool)
deriving DecidableEq, Repr

/-- The input ports in one cycle (R22). `clk` is the step itself. -/
structure Inputs where
  rst : Bool
  charValid : Bool
  charData : Octet
  line : LineIn
deriving DecidableEq, Repr

/-- The message record (R72): `msg_data` has octet 0 in bits 55:48 (R23). -/
structure Message where
  id : BitVec 5
  len : BitVec 3
  data : BitVec 56
deriving DecidableEq, Repr

/-- The output ports in one cycle (R23). -/
structure Outputs where
  lineOut : Bool
  charReady : Bool
  msgValid : Bool
  msgId : BitVec 5
  msgLen : BitVec 3
  msgData : BitVec 56
  errOversize : Bool
  vFault : Bool
deriving DecidableEq, Repr

/-- No output at 1. -/
def Outputs.zero : Outputs :=
  { lineOut := false, charReady := false, msgValid := false, msgId := 0, msgLen := 0, msgData := 0,
    errOversize := false, vFault := false }

/-- Which of the six events of R190 were raised in a cycle. -/
structure Events where
  oversizeLine : Bool
  syncMismatch : Bool
  stxMismatch : Bool
  endMismatch : Bool
  ambiguousSample : Bool
  validatorIndexFault : Bool
deriving DecidableEq, Repr

/-- No event. -/
def Events.none : Events :=
  { oversizeLine := false, syncMismatch := false, stxMismatch := false, endMismatch := false,
    ambiguousSample := false, validatorIndexFault := false }

/-! ### State -/

/-- The machine. `cur` is the architectural state, the pre-edge registers of R5; the other fields are the model's
own (log entries 1 to 5). -/
structure State where
  /-- The build parameters (R2); no step writes them. -/
  params : Params
  /-- The registers at the start of the cycle: what every rule reads (R5). -/
  cur : Regs
  /-- The primed values: what the registers become at the edge that ends the cycle (00_scope.md section 6). -/
  nxt : Regs
  /-- The octet that `QueuePush` appends in this cycle (R43). -/
  push : Option Octet
  /-- Whether `QueuePop` removes the oldest octet in this cycle (R44). -/
  pop : Bool
  /-- The output ports in this cycle. -/
  out : Outputs
  /-- The events of this cycle. -/
  events : Events
  /-- The inputs of this cycle and of the cycles after it. -/
  script : List Inputs
  /-- Steps taken: the index of the free line level. -/
  cycle : Nat
deriving DecidableEq, Repr

/-- Why the machine stops. -/
inductive Fault where
  /-- Raised by `F.PUSH` when R95 defines no `frame_byte(f_idx)`: `f_idx` is beyond `f_len + 4`, or it asks for an
  eighth character. No state that keeps R25 raises it. Safe: the model stops (log entry 13). -/
  | frameIndex
deriving DecidableEq, Repr

/-- Why an instruction has no meaning. -/
inductive Refusal where
  /-- An instruction without a meaning: no arm of `exec` answers it. Safe: the model stops. -/
  | notModelled (mnemonic : String)
deriving DecidableEq, Repr

/-- The machine right after reset (R26, R216): the registers at their reset values, with the spec's default
parameters, no input waiting and nothing yet put out (log entries 1 to 5). -/
def State.reset : State :=
  { params := Params.defaults, cur := Regs.reset, nxt := Regs.reset, push := none, pop := false,
    out := Outputs.zero, events := Events.none, script := [], cycle := 0 }

end Sys2Proof.Machine
end

