-- ==== Sys2Proof/Machine/Operands.lean ====
section
/-! DEFINITION. What the operations read: the input ports, the wires that are functions of the pre-edge state and of
the inputs (R24), the octet the Framer forms (R95), the sample (R129), the published bit (R130), the marker patterns
and the phase (R141). -/

namespace Sys2Proof.Machine

/-! ### Bit fields -/

/-- `a[i]' <- b` in a capture buffer: index 0 is the most significant bit (R49). Outside the buffer nothing is
written. -/
def setBit (w : Nat) (a : BitVec w) (i : Nat) (b : Bool) : BitVec w :=
  if i < w then
    if b then a ||| (1#w <<< (w - 1 - i)) else a &&& ~~~(1#w <<< (w - 1 - i))
  else a

/-- `pat(P, k)`: the k-th bit of a marker octet in transmission order (00_scope.md section 6). -/
def pat (p : Octet) (k : Nat) : Bool := p.getMsbD k

/-- The bits of an octet in transmission order (R47). -/
def octetBits (w : Octet) : List Bool := (List.range 8).map (pat w)

/-! ### Input ports -/

/-- The inputs of this cycle: the head of the script; past its end the host applies no reset and offers no character,
and the level of `line_in` is free (R22; log entries 3 and 4). -/
def State.inp (s : State) : Inputs :=
  match s.script with
  | i :: _ => i
  | [] => { rst := false, charValid := false, charData := 0, line := .level (Config.hostLine s.cycle) }

/-- `sample()`: the value of `line_in` in this cycle (R129); in loopback the pre-edge `line_out`. -/
def State.sample (s : State) : Bool :=
  match s.inp.line with
  | .loopback => s.cur.tx.lineOut
  | .level b => b

/-! ### Wires -/

/-- `tick` (R170). -/
def State.tick (s : State) : Bool := s.cur.tdiv == s.params.tCycles - 1

/-- `char_ready` (R99). -/
def State.charReady (s : State) : Bool := s.cur.framer.fState == .accum && !s.inp.rst

/-- A character is accepted in this cycle (R99). -/
def State.accepts (s : State) : Bool := s.inp.charValid && s.charReady

/-- The queue is full at the start of the cycle (R42). -/
def State.queueFull (s : State) : Bool := s.cur.q.length == s.params.queueDepth

/-- The queue is empty at the start of the cycle (R42). -/
def State.queueEmpty (s : State) : Bool := s.cur.q.isEmpty

/-- The Framer pushes in this cycle (R96). -/
def State.pushes (s : State) : Bool := s.cur.framer.fState == .push && !s.queueFull

/-- The three signals, raised together (R171); none in a reset cycle (R215). -/
def State.sigRaised (s : State) : Bool := s.cur.framer.fState == .signal && !s.inp.rst

/-- The Receiver is running: begun and not paused (R125). -/
def State.rxRunning (s : State) : Bool := s.cur.rx.rxStarted && !s.cur.resetFlag

/-- The Receiver takes a sample in this cycle (R129). -/
def State.rxSamples (s : State) : Bool := s.tick && s.rxRunning

/-- The group of four ends in this cycle (R130, R131). -/
def State.groupEnds (s : State) : Bool := s.rxSamples && s.cur.rx.rxIdx == 3

/-- The bit the Receiver publishes in this cycle (R130), forwarded to the Validator (R5). -/
def State.published (s : State) : Option Bool :=
  if s.groupEnds && s.cur.rx.rxS1 == s.cur.rx.rxS2 then some s.cur.rx.rxS1 else none

/-- The bit the Validator reacts to in this cycle: a published bit, unless it is parked or faulted (R140). -/
def State.decided (s : State) : Option Bool :=
  if s.cur.val.vParked || s.cur.val.vFault then none else s.published

/-! ### The frame octets -/

/-- The position of the next octet to push (R60, R95); none beyond `END`. -/
def Framer.place (f : Framer) : Option OctetPlace :=
  if f.fIdx = 0 then some .u
  else if f.fIdx = 1 then some .sync
  else if f.fIdx = 2 then some .stx
  else if f.fIdx = 3 then some .header
  else if f.fIdx.toNat < 4 + f.fLen.toNat then some .payload
  else if f.fIdx.toNat = 4 + f.fLen.toNat then some .endMarker
  else none

/-- `frame_byte(f_idx)` (R95); none where R95 defines no octet. -/
def Framer.frameByte (f : Framer) : Option Octet :=
  match f.place with
  | none => none
  | some .u => some Config.u
  | some .sync => some Config.sync
  | some .stx => some Config.stx
  | some .header => some (0xD0 ||| f.fLen.setWidth 8)
  | some .payload => f.fBuf[f.fIdx.toNat - 4]?
  | some .endMarker => some Config.endMarker

/-- The octet to push is `END`: `f_idx = f_len + 4` (R96). -/
def Framer.atEnd (f : Framer) : Bool := f.fIdx.toNat == f.fLen.toNat + 4

/-! ### The phase -/

/-- The phases of the Validator (R141). -/
inductive Phase where
  | sync | stx | id | length | payload | endMarker | complete
deriving DecidableEq, Repr

/-- Phase selection: the first row of R141 that holds. -/
def Validator.phase (v : Validator) : Phase :=
  if v.count.toNat ≤ 7 then .sync
  else if v.count.toNat ≤ 15 then .stx
  else if v.count.toNat ≤ 20 then .id
  else if v.count.toNat ≤ 23 then .length
  else if v.count.toNat ≤ 23 + v.payloadBits.toNat then .payload
  else if v.count.toNat ≤ 30 + v.payloadBits.toNat then .endMarker
  else .complete

/-- Message decode (R150): `int_be` of the buffers; octet j of the data is `int_be(message_buf[8j .. 8j+8))`, octet 0
in bits 55:48. -/
def Validator.message (v : Validator) : Message := { id := v.idBuf, len := v.nBuf, data := v.messageBuf }

end Sys2Proof.Machine
end

