-- ==== Sys2Proof/Machine/Flags.lean ====
section
/-! DEFINITION. The one-bit status registers (R29) and the six events (R190): the one place where each is set or
cleared. -/

namespace Sys2Proof.Machine

/-- `tx_busy' <- b` (R111, R115). -/
def State.setTxBusy (b : Bool) (s : State) : State :=
  { s with nxt := { s.nxt with tx := { s.nxt.tx with txBusy := b } } }

/-- `rx_started' <- 1` (R172). -/
def State.setRxStarted (s : State) : State :=
  { s with nxt := { s.nxt with rx := { s.nxt.rx with rxStarted := true } } }

/-- `reset_flag' <- b`: set at COMPLETE (R149), cleared by `sig_restart` (R174). -/
def State.setResetFlag (b : Bool) (s : State) : State :=
  { s with nxt := { s.nxt with resetFlag := b } }

/-- `v_parked' <- 0` (R173). -/
def State.clearParked (s : State) : State :=
  { s with nxt := { s.nxt with val := { s.nxt.val with vParked := false } } }

/-- Two sets of events together. -/
def Events.merge (a b : Events) : Events :=
  { oversizeLine := a.oversizeLine || b.oversizeLine
    syncMismatch := a.syncMismatch || b.syncMismatch
    stxMismatch := a.stxMismatch || b.stxMismatch
    endMismatch := a.endMismatch || b.endMismatch
    ambiguousSample := a.ambiguousSample || b.ambiguousSample
    validatorIndexFault := a.validatorIndexFault || b.validatorIndexFault }

/-- Raise events: they are recorded for this cycle; an event saves nothing and goes nowhere (R200). -/
def State.raise (e : Events) (s : State) : State := { s with events := s.events.merge e }

end Sys2Proof.Machine
end

