-- ==== Sys2Proof/Machine/Ops.lean ====
section
/-! DEFINITION. The named operations of 00_scope.md section 7, each over the pre-edge registers `cur` and the primed
registers `nxt`: the queue, the Framer's transitions, the Transmitter's load, the three signals, the sample, the
Validator's reactions with the events they raise, and COMPLETE. Writing `nxt` twice with one value is writing it
once, so operations that name the same transition may share a cycle (log entry 20). -/

namespace Sys2Proof.Machine

/-! ### The queue (20_memory.md section 2) -/

/-- `q'` from this cycle's requests: what is left after the pop, then the pushed octet (R43 to R45). -/
def State.requeue (s : State) : State :=
  { s with nxt := { s.nxt with q := (if s.pop then s.cur.q.tail else s.cur.q) ++ s.push.toList } }

/-- `QueuePush(v)` (R43). -/
def State.queuePush (v : Octet) (s : State) : State := { s with push := some v }.requeue

/-- `QueuePop()`, the removal (R44); the octet returned is the head of `cur.q`. -/
def State.queuePop (s : State) : State := { s with pop := true }.requeue

/-! ### The Framer -/

/-- The primed Framer registers after `f`. -/
def State.updFramer (f : Framer → Framer) (s : State) : State :=
  { s with nxt := { s.nxt with framer := f s.nxt.framer } }

/-- `f_buf[f_len]' <- c`, `f_len' <- f_len + 1` (R91). -/
def State.storeChar (c : Octet) (s : State) : State :=
  s.updFramer fun f =>
    { f with fBuf := f.fBuf.setIfInBounds s.cur.framer.fLen.toNat c, fLen := s.cur.framer.fLen + 1 }

/-- `f_len' <- 8`: the character is discarded (R92). -/
def State.dropChar (s : State) : State := s.updFramer fun f => { f with fLen := 8 }

/-- The line is taken: `f_idx' <- 0`, `f_state' <- PUSH` (R93). -/
def State.startPush (s : State) : State := s.updFramer fun f => { f with fIdx := 0, fState := .push }

/-- `emit err_oversize` and `f_len' <- 0`, the event OversizeLine (R94, R191). -/
def State.rejectLine (s : State) : State :=
  let s := s.updFramer fun f => { f with fLen := 0 }
  { s with out := { s.out with errOversize := true } }.raise { Events.none with oversizeLine := true }

/-- A payload character is accepted: stored while `f_len <= 6`, else discarded (R91, R92). -/
def State.takeChar (c : Octet) (s : State) : State :=
  if s.cur.framer.fLen.toNat ≤ 6 then s.storeChar c else s.dropChar

/-- A terminator is accepted: it ends a line that fits, or rejects a line that does not (R93, R94). -/
def State.takeTerminator (s : State) : State :=
  if s.cur.framer.fLen.toNat ≤ 7 then s.startPush
  else if s.cur.framer.fLen = 8 then s.rejectLine
  else s

/-- Push one octet of the frame and step on: to `SIGNAL` after `END`, else to the next index (R96). -/
def State.emitOctet (v : Octet) (s : State) : State :=
  (s.queuePush v).updFramer fun f =>
    if s.cur.framer.atEnd then { f with fState := .signal } else { f with fIdx := s.cur.framer.fIdx + 1 }

/-! ### The Transmitter -/

/-- The primed Transmitter registers after `f`. -/
def State.updTx (f : Transmitter → Transmitter) (s : State) : State :=
  { s with nxt := { s.nxt with tx := f s.nxt.tx } }

/-- Pop an octet and put its bit 7 on the line (R111, R114). Nothing where the queue is empty: then neither fires. -/
def State.loadOctet (s : State) : State :=
  match s.cur.q with
  | [] => s
  | b :: _ =>
    (s.queuePop.updTx fun t => { t with txByte := b, txIdx := 7, txHold := 0, lineOut := b.getLsbD 7 }).setTxBusy true

/-! ### The three signals (44_sync_fabric.md section 2) -/

/-- The primed Receiver registers after `f`. -/
def State.updRx (f : Receiver → Receiver) (s : State) : State :=
  { s with nxt := { s.nxt with rx := f s.nxt.rx } }

/-- "begin sampling": `rx_started' <- 1`, `rx_idx' <- 0` if the Receiver has not begun (R172, R126). -/
def State.beginSampling (s : State) : State :=
  if s.sigRaised && !s.cur.rx.rxStarted then s.setRxStarted.updRx fun r => { r with rxIdx := 0 } else s

/-- "abandon wait": `v_parked' <- 0` if the Validator is parked (R173). -/
def State.abandonWait (s : State) : State :=
  if s.sigRaised && s.cur.val.vParked then s.clearParked else s

/-- "restart sampling epoch": `reset_flag' <- 0`, `rx_idx' <- 0` if the Receiver is paused (R174, R128). -/
def State.restartSampling (s : State) : State :=
  if s.sigRaised && s.cur.resetFlag then (s.setResetFlag false).updRx fun r => { r with rxIdx := 0 } else s

/-- `pulse sig`: the three signals act in one cycle on the pre-edge state (R171). This release of the parked
Validator and of the paused Receiver is the nearest thing to a return (R201). -/
def State.pulseSignals (s : State) : State := s.beginSampling.abandonWait.restartSampling

/-! ### The Receiver -/

/-- One sample stored: `rx_s1`, `rx_s2` and `rx_idx` of `r` after sample `b` is taken with pre-edge index `i`
(R129). -/
def Receiver.store (i : BitVec 2) (b : Bool) (r : Receiver) : Receiver :=
  { r with rxS1 := if i = 1 then b else r.rxS1, rxS2 := if i = 2 then b else r.rxS2, rxIdx := i + 1 }

/-- `publish(d)`, the write of the Decided Bit cell (R130); the hand-over is `State.decided`. -/
def State.publish (d : Bool) (s : State) : State := s.updRx fun r => { r with dbit := d }

/-- One sample taken and, at the end of a group, the decision (R129 to R131). -/
def Receiver.take (r : Receiver) (b : Bool) : Receiver :=
  let r' := r.store r.rxIdx b
  if r.rxIdx = 3 ∧ r.rxS1 = r.rxS2 then { r' with dbit := r.rxS1 } else r'

/-- The group that ends with this sample is dropped: AmbiguousSample (R131, R195). -/
def Receiver.drops (r : Receiver) : Bool := r.rxIdx == 3 && r.rxS1 != r.rxS2

/-- A list of samples taken one after the other, with the events raised. -/
def Receiver.takeAll : Receiver → List Bool → Receiver × Events
  | r, [] => (r, Events.none)
  | r, b :: bs =>
    let rest := (r.take b).takeAll bs
    (rest.1, Events.merge { Events.none with ambiguousSample := r.drops } rest.2)

/-- A sample group given as a whole: a running Receiver takes those of its four samples that it has not taken yet,
which from `rx_idx` = 0 is all four and at the end of a group is the last (R129 to R131; log entry 9). -/
def State.takeGroup (s0 s1 s2 s3 : Bool) (s : State) : State :=
  if s.rxRunning then
    let r := s.cur.rx.takeAll ([s0, s1, s2, s3].drop s.cur.rx.rxIdx.toNat)
    (s.updRx fun _ => r.1).raise r.2
  else s

/-! ### The Validator: a pure transition function (R140) -/

/-- What one reaction gives: the next Validator registers, the message if it was COMPLETE, the events raised. -/
structure Reaction where
  val : Validator
  msg : Option Message
  events : Events
deriving DecidableEq, Repr

/-- A reaction that emits nothing and raises nothing. -/
def Reaction.quiet (v : Validator) : Reaction := { val := v, msg := none, events := Events.none }

/-- `raise ValidatorIndexFault`: `v_fault' <- 1`, nothing else changes (R153, R196). -/
def Validator.indexFault (v : Validator) : Reaction :=
  { val := { v with vFault := true }, msg := none, events := { Events.none with validatorIndexFault := true } }

/-- COMPLETE: emit the message of the pre-edge buffers, clear all, park (R149, R151). -/
def Validator.completeFrame (v : Validator) : Reaction :=
  { val := { Validator.reset with vParked := true, vFault := v.vFault }, msg := some v.message,
    events := Events.none }

/-- The SYNC phase (R142). -/
def Validator.reactSync (v : Validator) (d : Bool) : Reaction :=
  if d = pat Config.sync v.count.toNat then Reaction.quiet { v with count := v.count + 1 }
  else { val := { v with count := 0 }, msg := none, events := { Events.none with syncMismatch := true } }

/-- The STX phase (R143): the guard, then the comparison at `count2`. -/
def Validator.reactStx (v : Validator) (d : Bool) : Reaction :=
  if 7 < v.count2.toNat then v.indexFault
  else if d = pat Config.stx v.count2.toNat then
    Reaction.quiet { v with count := v.count + 1, count2 := v.count2 + 1 }
  else
    { val := { v with count := 0, count2 := 0 }, msg := none, events := { Events.none with stxMismatch := true } }

/-- The ID phase (R144): any bit is stored. -/
def Validator.reactId (v : Validator) (d : Bool) : Reaction :=
  if 4 < v.count3.toNat then v.indexFault
  else
    Reaction.quiet
      { v with idBuf := setBit 5 v.idBuf v.count3.toNat d, count3 := v.count3 + 1, count := v.count + 1 }

/-- The LENGTH phase (R145): any bit is stored; with the third, `payload_bits` is eight times the length. -/
def Validator.reactLength (v : Validator) (d : Bool) : Reaction :=
  if 2 < v.count4.toNat then v.indexFault
  else
    let n := setBit 3 v.nBuf v.count4.toNat d
    Reaction.quiet
      { v with
        nBuf := n
        count4 := v.count4 + 1
        count := v.count + 1
        payloadBits := if v.count4.toNat + 1 = 3 then n.setWidth 6 <<< 3 else v.payloadBits }

/-- The PAYLOAD phase (R146): any bit is stored. -/
def Validator.reactPayload (v : Validator) (d : Bool) : Reaction :=
  if 55 < v.count5.toNat then v.indexFault
  else
    Reaction.quiet
      { v with messageBuf := setBit 56 v.messageBuf v.count5.toNat d, count5 := v.count5 + 1, count := v.count + 1 }

/-- The seventh matching `END` bit performs COMPLETE at once (R147, R148). -/
def Validator.completesAtEnd (t : CompleteTrigger) (v : Validator) : Bool :=
  t == .sameBit && decide (30 + v.payloadBits.toNat < v.count.toNat + 1)

/-- The END phase (R147): the guard, the comparison at `count6`; a mismatch clears the counters of LENGTH, PAYLOAD
and END and keeps everything else (R154). -/
def Validator.reactEnd (t : CompleteTrigger) (v : Validator) (d : Bool) : Reaction :=
  if 6 < v.count6.toNat then v.indexFault
  else if d = pat Config.endMarker v.count6.toNat then
    if v.completesAtEnd t then v.completeFrame
    else Reaction.quiet { v with count6 := v.count6 + 1, count := v.count + 1 }
  else
    { val := { v with count := 0, count4 := 0, count5 := 0, count6 := 0 }, msg := none,
      events := { Events.none with endMismatch := true } }

/-- The reaction to a decided bit, by the phase (R141). A parked or faulted Validator drops the bit (R140). -/
def Validator.react (t : CompleteTrigger) (v : Validator) (d : Bool) : Reaction :=
  if v.vParked || v.vFault then Reaction.quiet v
  else
    match v.phase with
    | .sync => v.reactSync d
    | .stx => v.reactStx d
    | .id => v.reactId d
    | .length => v.reactLength d
    | .payload => v.reactPayload d
    | .endMarker => v.reactEnd t d
    | .complete => v.completeFrame

/-- The reactions to a list of decided bits, in order ("one-bit-in, one-reaction-out", R53): the last message and
all events are kept. -/
def Validator.feed (t : CompleteTrigger) : Validator → List Bool → Reaction
  | v, [] => Reaction.quiet v
  | v, d :: ds =>
    let r := v.react t d
    let rest := Validator.feed t r.val ds
    { val := rest.val, msg := rest.msg <|> r.msg, events := r.events.merge rest.events }

/-- `emit msg`: the message ports in this cycle (R72, R23). -/
def State.emitMessage (m : Message) (s : State) : State :=
  { s with out := { s.out with msgValid := true, msgId := m.id, msgLen := m.len, msgData := m.data } }

/-- A reaction written into the block: the Validator's registers, the events, and with a message the ports and
`reset_flag' <- 1` (R149). This is the one way any of the Validator's events or COMPLETE takes effect. -/
def State.applyReaction (r : Reaction) (s : State) : State :=
  let s := { s with nxt := { s.nxt with val := r.val } }.raise r.events
  match r.msg with
  | none => s
  | some m => (s.emitMessage m).setResetFlag true

/-- The reaction of one phase, if that phase handles the bit decided in this cycle (R140, R141). -/
def State.reactIn (p : Phase) (f : Validator → Bool → Reaction) (s : State) : State :=
  match s.decided with
  | none => s
  | some d => if s.cur.val.phase = p then s.applyReaction (f s.cur.val d) else s

/-- An octet on the receive side, given as a whole to a Validator whose `count` lies in the octet's eight bits, which
start at `first`: it reacts to those bits of the octet it has not taken yet, which at `first` is all eight
(R75; log entry 8). -/
def State.receiveOctet (first : Nat) (w : Octet) (s : State) : State :=
  if first ≤ s.cur.val.count.toNat ∧ s.cur.val.count.toNat < first + 8 then
    s.applyReaction (s.cur.val.feed s.params.completeTrigger ((octetBits w).drop (s.cur.val.count.toNat - first)))
  else s

end Sys2Proof.Machine
end

