-- ==== Sys2Proof/Machine/Fabric.lean ====
section
/-! DEFINITION. The synchronization fabric's operations (44_sync_fabric.md): the tick divider and the three signals. -/

namespace Sys2Proof.Machine

/-- `TICK`: the divider counts, and wraps in a tick cycle (R170). -/
def execTick (s : State) : Host.Outcome State Fault Refusal :=
  .next { s with nxt := { s.nxt with tdiv := if s.tick then 0 else s.cur.tdiv + 1 } }

/-- `SIG`: the three signals in one cycle (R171). -/
def execSig (s : State) : Host.Outcome State Fault Refusal := .next s.pulseSignals

/-- `SIG.BEGIN` (R172). -/
def execSigBegin (s : State) : Host.Outcome State Fault Refusal := .next s.beginSampling

/-- `SIG.ABANDON` (R173). -/
def execSigAbandon (s : State) : Host.Outcome State Fault Refusal := .next s.abandonWait

/-- `SIG.RESTART` (R174). -/
def execSigRestart (s : State) : Host.Outcome State Fault Refusal := .next s.restartSampling

end Sys2Proof.Machine
end

