-- ==== Sys2Proof/Machine/FrameOctets.lean ====
section
/-! DEFINITION. The frame octets as the Framer sends them (30_encoding.md section 2; format `frame-octet`): each is
the push of that octet at its position (R95, R96), and changes nothing where the Framer is not about to push it
(log entries 7 and 11). -/

namespace Sys2Proof.Machine

/-- `U` is the next octet to push (R62). -/
def firesU (s : State) : Bool := s.pushes && s.cur.framer.place == some .u

/-- `SYNC` is the next octet to push (R63). -/
def firesSync (s : State) : Bool := s.pushes && s.cur.framer.place == some .sync

/-- `STX` is the next octet to push (R64). -/
def firesStx (s : State) : Bool := s.pushes && s.cur.framer.place == some .stx

/-- `HEADER` with length `n` is the next octet to push (R65). -/
def firesHeader (n : BitVec 3) (s : State) : Bool :=
  s.pushes && s.cur.framer.place == some .header && s.cur.framer.fLen.toNat == n.toNat

/-- The payload octet `c` is the next octet to push (R66). -/
def firesPayload (c : Octet) (s : State) : Bool :=
  s.pushes && s.cur.framer.place == some .payload && s.cur.framer.frameByte == some c

/-- `END` is the next octet to push (R67). -/
def firesEndMarker (s : State) : Bool := s.pushes && s.cur.framer.place == some .endMarker

/-- `U`: 85, pushed first (R62). -/
def execU (s : State) : Host.Outcome State Fault Refusal :=
  if firesU s then .next (s.emitOctet Config.u) else .next s

/-- `SYNC`: 65, pushed second (R63). -/
def execSync (s : State) : Host.Outcome State Fault Refusal :=
  if firesSync s then .next (s.emitOctet Config.sync) else .next s

/-- `STX`: 66, pushed third (R64). -/
def execStx (s : State) : Host.Outcome State Fault Refusal :=
  if firesStx s then .next (s.emitOctet Config.stx) else .next s

/-- `HEADER`: `(0b11010 << 3) | n`, pushed fourth (R65). -/
def execHeader (n : BitVec 3) (s : State) : Host.Outcome State Fault Refusal :=
  if firesHeader n s then .next (s.emitOctet (joinHeader Config.idPattern n)) else .next s

/-- `PAYLOAD`: one typed character (R66). -/
def execPayload (c : Octet) (s : State) : Host.Outcome State Fault Refusal :=
  if firesPayload c s then .next (s.emitOctet c) else .next s

/-- `END`: 67, pushed last (R67). -/
def execEndMarker (s : State) : Host.Outcome State Fault Refusal :=
  if firesEndMarker s then .next (s.emitOctet Config.endMarker) else .next s

end Sys2Proof.Machine
end

