-- ==== Sys2Proof/Machine/Framer.lean ====
section
/-! DEFINITION. The Framer's operations (40_framer.md): when each fires and what it does. An operation that does not
fire changes nothing (log entry 11). -/

namespace Sys2Proof.Machine

/-- `F.CHAR` fires (R91). -/
def firesFChar (s : State) : Bool :=
  s.accepts && !isTerminator s.inp.charData && decide (s.cur.framer.fLen.toNat ≤ 6)

/-- `F.CHAR.OVER` fires (R92). -/
def firesFCharOver (s : State) : Bool :=
  s.accepts && !isTerminator s.inp.charData && decide (7 ≤ s.cur.framer.fLen.toNat)

/-- `F.TERM.OK` fires (R93). -/
def firesFTermOk (s : State) : Bool :=
  s.accepts && isTerminator s.inp.charData && decide (s.cur.framer.fLen.toNat ≤ 7)

/-- `F.TERM.OVERSIZE` fires (R94). -/
def firesFTermOversize (s : State) : Bool :=
  s.accepts && isTerminator s.inp.charData && s.cur.framer.fLen == 8

/-- `F.PUSH` fires (R96). -/
def firesFPush (s : State) : Bool := s.pushes

/-- `F.STALL` fires (R97). -/
def firesFStall (s : State) : Bool := s.cur.framer.fState == .push && s.queueFull

/-- `F.SIGNAL` fires (R98); not in a reset cycle, in which no signal is raised (R215). -/
def firesFSignal (s : State) : Bool := s.sigRaised

/-- `F.CHAR`: store a character (R91). -/
def execFChar (s : State) : Host.Outcome State Fault Refusal :=
  if firesFChar s then .next (s.storeChar s.inp.charData) else .next s

/-- `F.CHAR.OVER`: a character beyond the seventh (R92). -/
def execFCharOver (s : State) : Host.Outcome State Fault Refusal :=
  if firesFCharOver s then .next s.dropChar else .next s

/-- `F.TERM.OK`: a terminator ends a line that fits (R93). -/
def execFTermOk (s : State) : Host.Outcome State Fault Refusal :=
  if firesFTermOk s then .next s.startPush else .next s

/-- `F.TERM.OVERSIZE`: a terminator ends a line that does not fit (R94). -/
def execFTermOversize (s : State) : Host.Outcome State Fault Refusal :=
  if firesFTermOversize s then .next s.rejectLine else .next s

/-- `F.PUSH`: push one octet of the frame (R96, R95). -/
def execFPush (s : State) : Host.Outcome State Fault Refusal :=
  if firesFPush s then
    match s.cur.framer.frameByte with
    | some v => .next (s.emitOctet v)
    | none => .fault .frameIndex
  else .next s

/-- `F.STALL`: the queue is full; nothing changes (R97). -/
def execFStall (s : State) : Host.Outcome State Fault Refusal := .next s

/-- `F.SIGNAL`: raise the three signals, clear the count, go back to `ACCUM` (R98). -/
def execFSignal (s : State) : Host.Outcome State Fault Refusal :=
  if firesFSignal s then
    .next (s.pulseSignals.updFramer fun f => { f with fLen := 0, fState := .accum })
  else .next s

end Sys2Proof.Machine
end

