-- ==== Sys2Proof/Machine/Patterns.lean ====
section
/-! DEFINITION. The other encoded patterns: the input characters (R70), the sample groups (R69), and the frame octets
as the Validator accepts them (R74). -/

namespace Sys2Proof.Machine

/-! ### Input characters: the character offered is accepted in a cycle with `char_ready` = 1 (R99) -/

/-- `CHAR.LF`: the terminator line feed (R93, R94). -/
def execCharLf (s : State) : Host.Outcome State Fault Refusal :=
  if s.charReady then .next s.takeTerminator else .next s

/-- `CHAR.CR`: the terminator carriage return (R93, R94). -/
def execCharCr (s : State) : Host.Outcome State Fault Refusal :=
  if s.charReady then .next s.takeTerminator else .next s

/-- `CHAR.OTHER`: a payload character (R91, R92). -/
def execCharOther (c : Octet) (s : State) : Host.Outcome State Fault Refusal :=
  if s.charReady then .next (s.takeChar c) else .next s

/-! ### Sample groups -/

/-- `GROUP.ZERO`: samples a00b publish 0 (R130). -/
def execGroupZero (a b : Bool) (s : State) : Host.Outcome State Fault Refusal :=
  .next (s.takeGroup a false false b)

/-- `GROUP.ONE`: samples a11b publish 1 (R130). -/
def execGroupOne (a b : Bool) (s : State) : Host.Outcome State Fault Refusal :=
  .next (s.takeGroup a true true b)

/-- `GROUP.DROP01`: samples a01b are dropped (R131). -/
def execGroupDrop01 (a b : Bool) (s : State) : Host.Outcome State Fault Refusal :=
  .next (s.takeGroup a false true b)

/-- `GROUP.DROP10`: samples a10b are dropped (R131). -/
def execGroupDrop10 (a b : Bool) (s : State) : Host.Outcome State Fault Refusal :=
  .next (s.takeGroup a true false b)

/-! ### Receive-side octets -/

/-- `HEADER.RX`: five bits into `id_buf`, three into `n_buf`, unchecked; `payload_bits` = 8 * n (R144, R145). -/
def execHeaderRx (id : BitVec 5) (n : BitVec 3) (s : State) : Host.Outcome State Fault Refusal :=
  .next (s.receiveOctet 16 (joinHeader id n))

/-- `END.RX`: seven bits compared, bit 0 not; then COMPLETE (R147 to R149). -/
def execEndRx (x : Bool) (s : State) : Host.Outcome State Fault Refusal :=
  .next (s.receiveOctet (24 + s.cur.val.payloadBits.toNat) (0b0100001#7 ++ BitVec.ofBool x))

end Sys2Proof.Machine
end

