-- ==== Sys2Proof/Machine/Receiver.lean ====
section
/-! DEFINITION. The Bit Receiver's operations (42_receiver.md). -/

namespace Sys2Proof.Machine

/-- `RX.BEGIN` fires: the Receiver has not begun (R126). -/
def firesRxBegin (s : State) : Bool := !s.cur.rx.rxStarted

/-- `RX.PAUSE` fires: a tick with the reset flag set (R127). -/
def firesRxPause (s : State) : Bool := s.tick && s.cur.rx.rxStarted && s.cur.resetFlag

/-- `RX.RESTART` fires (R128). -/
def firesRxRestart (s : State) : Bool := s.sigRaised && s.cur.resetFlag

/-- `RX.SAMPLE` fires (R129). -/
def firesRxSample (s : State) : Bool := s.rxSamples

/-- `RX.DECIDE.AGREE` fires (R130). -/
def firesRxDecideAgree (s : State) : Bool := s.groupEnds && s.cur.rx.rxS1 == s.cur.rx.rxS2

/-- `RX.DECIDE.DROP` fires (R131). -/
def firesRxDecideDrop (s : State) : Bool := s.groupEnds && s.cur.rx.rxS1 != s.cur.rx.rxS2

/-- `RX.BEGIN`: the startup wait, ended by `sig_begin` (R126, R172). -/
def execRxBegin (s : State) : Host.Outcome State Fault Refusal := .next s.beginSampling

/-- `RX.PAUSE`: no sample is taken and no register changes (R127). -/
def execRxPause (s : State) : Host.Outcome State Fault Refusal := .next s

/-- `RX.RESTART`: the pause, ended by `sig_restart` (R128, R174). -/
def execRxRestart (s : State) : Host.Outcome State Fault Refusal := .next s.restartSampling

/-- `RX.SAMPLE`: take one sample (R129). -/
def execRxSample (s : State) : Host.Outcome State Fault Refusal :=
  if firesRxSample s then .next (s.updRx fun r => r.store s.cur.rx.rxIdx s.sample) else .next s

/-- `RX.DECIDE.AGREE`: publish the value of the two middle samples (R130). -/
def execRxDecideAgree (s : State) : Host.Outcome State Fault Refusal :=
  if firesRxDecideAgree s then .next (s.publish s.cur.rx.rxS1) else .next s

/-- `RX.DECIDE.DROP`: nothing is published; the event AmbiguousSample (R131, R195). -/
def execRxDecideDrop (s : State) : Host.Outcome State Fault Refusal :=
  if firesRxDecideDrop s then .next (s.raise { Events.none with ambiguousSample := true }) else .next s

end Sys2Proof.Machine
end

