-- ==== Sys2Proof/Machine/Transmitter.lean ====
section
/-! DEFINITION. The Bit Transmitter's operations, all in a tick cycle (41_transmitter.md). -/

namespace Sys2Proof.Machine

/-- The last tick of the last bit of an octet: `tx_busy` = 1, `tx_hold` = 3, `tx_idx` = 0 in a tick cycle
(R114, R115). -/
def State.txOctetEnds (s : State) : Bool := s.tick && s.cur.tx.txBusy && s.cur.tx.txHold == 3 && s.cur.tx.txIdx == 0

/-- `TX.LOAD` fires (R111). -/
def firesTxLoad (s : State) : Bool := s.tick && !s.cur.tx.txBusy && !s.queueEmpty

/-- `TX.HOLD` fires (R112). -/
def firesTxHold (s : State) : Bool := s.tick && s.cur.tx.txBusy && decide (s.cur.tx.txHold.toNat < 3)

/-- `TX.SHIFT` fires (R113). -/
def firesTxShift (s : State) : Bool :=
  s.tick && s.cur.tx.txBusy && s.cur.tx.txHold == 3 && decide (0 < s.cur.tx.txIdx.toNat)

/-- `TX.NEXT` fires (R114). -/
def firesTxNext (s : State) : Bool := s.txOctetEnds && !s.queueEmpty

/-- `TX.IDLE` fires (R115). -/
def firesTxIdle (s : State) : Bool := s.txOctetEnds && s.queueEmpty

/-- `TX.WAIT` fires (R116). -/
def firesTxWait (s : State) : Bool := s.tick && !s.cur.tx.txBusy && s.queueEmpty

/-- `TX.LOAD`: start an octet from idle (R111). -/
def execTxLoad (s : State) : Host.Outcome State Fault Refusal :=
  if firesTxLoad s then .next s.loadOctet else .next s

/-- `TX.HOLD`: keep the bit on the line (R112). -/
def execTxHold (s : State) : Host.Outcome State Fault Refusal :=
  if firesTxHold s then .next (s.updTx fun t => { t with txHold := s.cur.tx.txHold + 1 }) else .next s

/-- `TX.SHIFT`: go to the next bit of the same octet (R113). -/
def execTxShift (s : State) : Host.Outcome State Fault Refusal :=
  if firesTxShift s then
    .next (s.updTx fun t =>
      { t with
        txIdx := s.cur.tx.txIdx - 1
        lineOut := s.cur.tx.txByte.getLsbD (s.cur.tx.txIdx.toNat - 1)
        txHold := 0 })
  else .next s

/-- `TX.NEXT`: the next octet starts in the tick in which the last one ends (R114). -/
def execTxNext (s : State) : Host.Outcome State Fault Refusal :=
  if firesTxNext s then .next s.loadOctet else .next s

/-- `TX.IDLE`: the last octet has been sent (R115). -/
def execTxIdle (s : State) : Host.Outcome State Fault Refusal :=
  if firesTxIdle s then .next (s.setTxBusy false) else .next s

/-- `TX.WAIT`: blocked on the empty queue; nothing changes (R116). -/
def execTxWait (s : State) : Host.Outcome State Fault Refusal := .next s

end Sys2Proof.Machine
end

