-- ==== Sys2Proof/Machine/Validator.lean ====
section
/-! DEFINITION. The Frame Validator's operations (43_validator.md): the reaction of each phase to the bit decided in
this cycle. -/

namespace Sys2Proof.Machine

/-- The phase `p` handles the bit decided in this cycle (R140, R141). -/
def firesV (p : Phase) (s : State) : Bool := s.decided.isSome && s.cur.val.phase == p

/-- The seventh matching `END` bit completes the frame in this very cycle, under `SAME_BIT` (R147, R148). -/
def State.endCompletes (s : State) : Bool :=
  match s.decided with
  | none => false
  | some d =>
    s.cur.val.phase == .endMarker && decide (s.cur.val.count6.toNat ≤ 6)
      && d == pat Config.endMarker s.cur.val.count6.toNat && s.cur.val.completesAtEnd s.params.completeTrigger

/-- `V.COMPLETE` fires (R148). -/
def firesVComplete (s : State) : Bool := firesV .complete s || s.endCompletes

/-- `V.SYNC`: match one bit of `SYNC` (R142). -/
def execVSync (s : State) : Host.Outcome State Fault Refusal := .next (s.reactIn .sync Validator.reactSync)

/-- `V.STX`: match one bit of `STX` (R143). -/
def execVStx (s : State) : Host.Outcome State Fault Refusal := .next (s.reactIn .stx Validator.reactStx)

/-- `V.ID`: capture one bit of the ID field (R144). -/
def execVId (s : State) : Host.Outcome State Fault Refusal := .next (s.reactIn .id Validator.reactId)

/-- `V.LENGTH`: capture one bit of the length field (R145). -/
def execVLength (s : State) : Host.Outcome State Fault Refusal := .next (s.reactIn .length Validator.reactLength)

/-- `V.PAYLOAD`: capture one payload bit (R146). -/
def execVPayload (s : State) : Host.Outcome State Fault Refusal := .next (s.reactIn .payload Validator.reactPayload)

/-- `V.END`: match one of the first seven bits of `END` (R147). -/
def execVEnd (s : State) : Host.Outcome State Fault Refusal :=
  .next (s.reactIn .endMarker (Validator.reactEnd s.params.completeTrigger))

/-- `V.COMPLETE`: emit the message and park (R149), at the moment `COMPLETE_TRIGGER` sets (R148). -/
def execVComplete (s : State) : Host.Outcome State Fault Refusal :=
  if firesVComplete s then .next (s.applyReaction s.cur.val.completeFrame) else .next s

end Sys2Proof.Machine
end

