-- ==== Sys2Proof/Machine/Dispatch.lean ====
section
/-! DEFINITION. The meaning of every row of the opcode table: what it writes in the cycle in which it is run. -/

namespace Sys2Proof.Machine

def exec (i : Instr) (s : State) : Host.Outcome State Fault Refusal :=
  match i with
  | .u => Sys2Proof.Machine.execU s
  | .sync => Sys2Proof.Machine.execSync s
  | .stx => Sys2Proof.Machine.execStx s
  | .header n => Sys2Proof.Machine.execHeader n s
  | .payload c => Sys2Proof.Machine.execPayload c s
  | .endMarker => Sys2Proof.Machine.execEndMarker s
  | .headerRx id n => Sys2Proof.Machine.execHeaderRx id n s
  | .endRx x => Sys2Proof.Machine.execEndRx x s
  | .charLf => Sys2Proof.Machine.execCharLf s
  | .charCr => Sys2Proof.Machine.execCharCr s
  | .charOther c => Sys2Proof.Machine.execCharOther c s
  | .groupZero a b => Sys2Proof.Machine.execGroupZero a b s
  | .groupOne a b => Sys2Proof.Machine.execGroupOne a b s
  | .groupDrop01 a b => Sys2Proof.Machine.execGroupDrop01 a b s
  | .groupDrop10 a b => Sys2Proof.Machine.execGroupDrop10 a b s
  | .fChar => Sys2Proof.Machine.execFChar s
  | .fCharOver => Sys2Proof.Machine.execFCharOver s
  | .fTermOk => Sys2Proof.Machine.execFTermOk s
  | .fTermOversize => Sys2Proof.Machine.execFTermOversize s
  | .fPush => Sys2Proof.Machine.execFPush s
  | .fStall => Sys2Proof.Machine.execFStall s
  | .fSignal => Sys2Proof.Machine.execFSignal s
  | .txLoad => Sys2Proof.Machine.execTxLoad s
  | .txHold => Sys2Proof.Machine.execTxHold s
  | .txShift => Sys2Proof.Machine.execTxShift s
  | .txNext => Sys2Proof.Machine.execTxNext s
  | .txIdle => Sys2Proof.Machine.execTxIdle s
  | .txWait => Sys2Proof.Machine.execTxWait s
  | .rxBegin => Sys2Proof.Machine.execRxBegin s
  | .rxPause => Sys2Proof.Machine.execRxPause s
  | .rxRestart => Sys2Proof.Machine.execRxRestart s
  | .rxSample => Sys2Proof.Machine.execRxSample s
  | .rxDecideAgree => Sys2Proof.Machine.execRxDecideAgree s
  | .rxDecideDrop => Sys2Proof.Machine.execRxDecideDrop s
  | .vSync => Sys2Proof.Machine.execVSync s
  | .vStx => Sys2Proof.Machine.execVStx s
  | .vId => Sys2Proof.Machine.execVId s
  | .vLength => Sys2Proof.Machine.execVLength s
  | .vPayload => Sys2Proof.Machine.execVPayload s
  | .vEnd => Sys2Proof.Machine.execVEnd s
  | .vComplete => Sys2Proof.Machine.execVComplete s
  | .tick => Sys2Proof.Machine.execTick s
  | .sig => Sys2Proof.Machine.execSig s
  | .sigBegin => Sys2Proof.Machine.execSigBegin s
  | .sigAbandon => Sys2Proof.Machine.execSigAbandon s
  | .sigRestart => Sys2Proof.Machine.execSigRestart s

end Sys2Proof.Machine
end

