-- ==== Sys2Proof/Machine/Select.lean ====
section
/-! DEFINITION. Which instructions a cycle runs: the state-selected operations whose firing condition holds, and the
encoded patterns that are complete in this cycle, decoded at their places. -/

namespace Sys2Proof.Machine

/-- The Framer's operations of this cycle: at most one (R90). -/
def framerOps (s : State) : List Instr :=
  (if firesFChar s then [.fChar] else []) ++ (if firesFCharOver s then [.fCharOver] else [])
    ++ (if firesFTermOk s then [.fTermOk] else []) ++ (if firesFTermOversize s then [.fTermOversize] else [])
    ++ (if firesFPush s then [.fPush] else []) ++ (if firesFStall s then [.fStall] else [])
    ++ (if firesFSignal s then [.fSignal] else [])

/-- The Transmitter's operations of this cycle: exactly one in a tick cycle, none in another (R110). -/
def txOps (s : State) : List Instr :=
  (if firesTxLoad s then [.txLoad] else []) ++ (if firesTxHold s then [.txHold] else [])
    ++ (if firesTxShift s then [.txShift] else []) ++ (if firesTxNext s then [.txNext] else [])
    ++ (if firesTxIdle s then [.txIdle] else []) ++ (if firesTxWait s then [.txWait] else [])

/-- The Receiver's operations of this cycle (R126 to R131). -/
def rxOps (s : State) : List Instr :=
  (if firesRxBegin s then [.rxBegin] else []) ++ (if firesRxPause s then [.rxPause] else [])
    ++ (if firesRxRestart s then [.rxRestart] else []) ++ (if firesRxSample s then [.rxSample] else [])
    ++ (if firesRxDecideAgree s then [.rxDecideAgree] else [])
    ++ (if firesRxDecideDrop s then [.rxDecideDrop] else [])

/-- The Validator's operations of this cycle: the phase that handles the decided bit (R141), and COMPLETE at the
moment of R148. -/
def valOps (s : State) : List Instr :=
  (if firesV .sync s then [.vSync] else []) ++ (if firesV .stx s then [.vStx] else [])
    ++ (if firesV .id s then [.vId] else []) ++ (if firesV .length s then [.vLength] else [])
    ++ (if firesV .payload s then [.vPayload] else []) ++ (if firesV .endMarker s then [.vEnd] else [])
    ++ (if firesVComplete s then [.vComplete] else [])

/-- The signals of this cycle (R171 to R174). -/
def sigOps (s : State) : List Instr :=
  if s.sigRaised then [.sig, .sigBegin, .sigAbandon, .sigRestart] else []

/-- An instruction decoded in this cycle, if the word is one at its place. -/
def decodedAt (p : Place) (w : Octet) : List Instr := (decodeAt p w).toOption.toList

/-- The character accepted in this cycle, decoded (R70, R99). -/
def charOps (s : State) : List Instr :=
  if s.accepts then decodedAt .inputChar s.inp.charData else []

/-- The frame octet pushed in this cycle, decoded at its position (R60, R96). -/
def octetOps (s : State) : List Instr :=
  match s.pushes, s.cur.framer.place, s.cur.framer.frameByte with
  | true, some p, some w => decodedAt (.octet p) w
  | _, _, _ => []

/-- The sample group that ends in this cycle, decoded; its sample 0 was thrown away (R129) and is given as 0. -/
def groupOps (s : State) : List Instr :=
  if s.groupEnds then decodedAt .sampleGroup (groupWord false s.cur.rx.rxS1 s.cur.rx.rxS2 s.sample) else []

/-- The header octet whose last bit is decided in this cycle, decoded from the buffers (R75, R145). -/
def headerRxOps (s : State) : List Instr :=
  match s.decided with
  | none => []
  | some d =>
    if s.cur.val.count = 23 then
      decodedAt (.octetRx .header) (joinHeader s.cur.val.idBuf (setBit 3 s.cur.val.nBuf 2 d))
    else []

/-- The end octet that completes a frame in this cycle, decoded: under `NEXT_BIT` its bit 0 is the bit decided now,
under `SAME_BIT` that bit is never looked at (R67) and is given as 0. -/
def endRxOps (s : State) : List Instr :=
  match s.decided with
  | none => []
  | some d =>
    if s.cur.val.count.toNat = 31 + s.cur.val.payloadBits.toNat then
      decodedAt (.octetRx .endMarker) (0b0100001#7 ++ BitVec.ofBool d)
    else if s.endCompletes && s.cur.val.count6 == 6 && s.cur.val.count.toNat == 30 + s.cur.val.payloadBits.toNat then
      decodedAt (.octetRx .endMarker) 0b01000010
    else []

/-- The encoded patterns complete in this cycle. -/
def patternOps (s : State) : List Instr :=
  charOps s ++ octetOps s ++ groupOps s ++ headerRxOps s ++ endRxOps s

/-- Everything a cycle runs. The order is of no effect: every operation reads the pre-edge registers, and no two
write different values to one register (R5, R178). -/
def cycleOps (s : State) : List Instr :=
  [.tick] ++ framerOps s ++ txOps s ++ rxOps s ++ valOps s ++ sigOps s ++ patternOps s

/-- Run instructions one after the other within one cycle, stopping at the first that stops. -/
def runOps : List Instr → State → Host.Outcome State Fault Refusal
  | [], s => .next s
  | i :: is, s =>
    match exec i s with
    | .next t => runOps is t
    | .fault r => .fault r
    | .refused r => .refused r

/-- The start of a cycle: the primed registers keep the pre-edge values unless an operation writes them, and the
outputs are at the values they have when nothing is emitted (R23, R99). -/
def State.beginCycle (s : State) : State :=
  { s with
    nxt := s.cur
    push := none
    pop := false
    out := { Outputs.zero with lineOut := s.cur.tx.lineOut, charReady := s.charReady, vFault := s.cur.val.vFault }
    events := Events.none }

/-- The rising edge that ends a cycle: all registers change together (R5). -/
def State.edge (s : State) : State :=
  { s with cur := s.nxt, push := none, pop := false, script := s.script.tail, cycle := s.cycle + 1 }

/-- A cycle with `rst` = 1: every register takes its reset value, nothing is accepted, raised or emitted; the two
outputs that are registers show them until the edge (R215). -/
def State.resetCycle (s : State) : State :=
  { s with
    cur := Regs.reset
    nxt := Regs.reset
    push := none
    pop := false
    out := { Outputs.zero with lineOut := s.cur.tx.lineOut, vFault := s.cur.val.vFault }
    events := Events.none
    script := s.script.tail
    cycle := s.cycle + 1 }

/-- One clock cycle (R5). -/
def clockCycle (s : State) : Host.Outcome State Fault Refusal :=
  if s.inp.rst then .next s.resetCycle
  else
    match runOps (cycleOps s.beginCycle) s.beginCycle with
    | .next t => .next t.edge
    | .fault r => .fault r
    | .refused r => .refused r

/-! ### Placing an instruction where the next cycle runs it -/

/-- An input cycle with no reset and no character, the line at a level. -/
def quietInput (line : LineIn) : Inputs := { rst := false, charValid := false, charData := 0, line := line }

/-- The script with its first cycle replaced. -/
def State.withInput (i : Inputs) (s : State) : State := { s with script := i :: s.script.tail }

/-- The registers changed. -/
def State.withRegs (f : Regs → Regs) (s : State) : State := { s with cur := f s.cur }

/-- A character is offered to a Framer in `ACCUM`. -/
def State.offering (c : Octet) (s : State) : State :=
  (s.withRegs fun r => { r with framer := { r.framer with fState := .accum } }).withInput
    { rst := false, charValid := true, charData := c, line := .loopback }

/-- The Framer is about to push the octet of index `idx` of a frame whose line is `cs`, and the queue has room. -/
def State.pushing (len idx : BitVec 4) (buf : Vector Octet 7) (s : State) : State :=
  (s.withRegs fun r =>
    { r with
      framer := { fState := .push, fLen := len, fBuf := buf, fIdx := idx }
      q := if r.q.length = s.params.queueDepth then [] else r.q }).withInput (quietInput .loopback)

/-- The Receiver is about to take the last sample of a group. -/
def State.sampling (s1 s2 b : Bool) (s : State) : State :=
  (s.withRegs fun r =>
    { r with
      tdiv := s.params.tCycles - 1
      rx := { r.rx with rxStarted := true, rxIdx := 3, rxS1 := s1, rxS2 := s2 }
      resetFlag := false }).withInput (quietInput (.level b))

/-- The Validator is about to decide the last bit of an octet of the receive side. -/
def State.receiving (v : Validator) (d : Bool) (s : State) : State :=
  (s.sampling d d d).withRegs fun r => { r with val := v }

/-- The state changed so that the very next step runs `i` (log entry 12). A state-selected operation has no word and
is placed nowhere. -/
def State.placing (i : Instr) (s : State) : State :=
  match i with
  | .u => s.pushing s.cur.framer.fLen 0 s.cur.framer.fBuf
  | .sync => s.pushing s.cur.framer.fLen 1 s.cur.framer.fBuf
  | .stx => s.pushing s.cur.framer.fLen 2 s.cur.framer.fBuf
  | .header n => s.pushing (n.setWidth 4) 3 s.cur.framer.fBuf
  | .payload c => s.pushing 1 4 (s.cur.framer.fBuf.setIfInBounds 0 c)
  | .endMarker => s.pushing 0 4 s.cur.framer.fBuf
  | .headerRx id n =>
    s.receiving
      { Validator.reset with count := 23, count2 := 8, count3 := 5, count4 := 2, idBuf := id, nBuf := n &&& 0b110 }
      (n.getLsbD 0)
  | .endRx x =>
    match s.params.completeTrigger with
    | .nextBit =>
      s.receiving { Validator.reset with count := 31, count2 := 8, count3 := 5, count4 := 3, count6 := 7 } x
    | .sameBit =>
      s.receiving { Validator.reset with count := 30, count2 := 8, count3 := 5, count4 := 3, count6 := 6 } true
  | .charLf => s.offering Config.lineFeed
  | .charCr => s.offering Config.carriageReturn
  | .charOther c => s.offering c
  | .groupZero _ b => s.sampling false false b
  | .groupOne _ b => s.sampling true true b
  | .groupDrop01 _ b => s.sampling false true b
  | .groupDrop10 _ b => s.sampling true false b
  | .fChar => s
  | .fCharOver => s
  | .fTermOk => s
  | .fTermOversize => s
  | .fPush => s
  | .fStall => s
  | .fSignal => s
  | .txLoad => s
  | .txHold => s
  | .txShift => s
  | .txNext => s
  | .txIdle => s
  | .txWait => s
  | .rxBegin => s
  | .rxPause => s
  | .rxRestart => s
  | .rxSample => s
  | .rxDecideAgree => s
  | .rxDecideDrop => s
  | .vSync => s
  | .vStx => s
  | .vId => s
  | .vLength => s
  | .vPayload => s
  | .vEnd => s
  | .vComplete => s
  | .tick => s
  | .sig => s
  | .sigBegin => s
  | .sigAbandon => s
  | .sigRestart => s

/-- The instruction of a table word placed for the next step; a word that is none changes nothing. -/
def State.placingWord (nbits w : Nat) (s : State) : State :=
  match decodeTableWord nbits w with
  | some i => s.placing i
  | none => s

end Sys2Proof.Machine
end

