-- ==== Sys2Proof/Machine/Step.lean ====
section
/-! DEFINITION. One step of the machine is one clock cycle. -/

namespace Sys2Proof.Machine

/-- One step: one clock cycle (R4, R5). -/
def step (s : State) : Host.Outcome State Fault Refusal := clockCycle s

/-- The state with a table word placed where the next step reads it (log entry 12). -/
def State.withFetchWord (s : State) (nbits w : Nat) : State := s.placingWord nbits w

end Sys2Proof.Machine
end

