-- ==== Sys2Proof/Machine/Pair.lean ====
section
/-! DEFINITION. Two boards: two instances on one clock, each one's `line_in` wired to the other's `line_out`
(R205, R229, program X1). Instances share no state but the line. Instances on different clocks are refused by the
spec (U19) and have no model here (log entry 18). -/

namespace Sys2Proof.Machine

/-- Two instances. -/
structure Pair where
  a : State
  b : State
deriving DecidableEq, Repr

/-- The line of this cycle replaced by a level, the other inputs as the script gives them. -/
def State.withLine (l : Bool) (s : State) : State := s.withInput { s.inp with line := .level l }

/-- One clock cycle of both: each sees the other's pre-edge `line_out` (R5). -/
def Pair.step (p : Pair) : Host.Outcome Pair Fault Refusal :=
  match Machine.step (p.a.withLine p.b.cur.tx.lineOut), Machine.step (p.b.withLine p.a.cur.tx.lineOut) with
  | .next a, .next b => .next { a := a, b := b }
  | .fault r, _ => .fault r
  | .refused r, _ => .refused r
  | .next _, .fault r => .fault r
  | .next _, .refused r => .refused r

end Sys2Proof.Machine
end

