-- ==== Sys2Proof/Safety.lean ====
section
/-! DEFINITION. The invariant of the block (10_state.md section 5, R157) and what counts as a safe run. -/

namespace Sys2Proof.Machine

/-- The Framer's counters (R25(d), R12): `f_len` at most 8, at most 7 while a frame is pushed or signalled, and then
`f_idx` is at most the index of `END`. -/
abbrev Framer.ok (f : Framer) : Prop :=
  f.fLen.toNat ≤ 8 ∧ (f.fState ≠ .accum → f.fLen.toNat ≤ 7 ∧ f.fIdx.toNat ≤ f.fLen.toNat + 4)

/-- The queue holds at most `QUEUE_DEPTH` octets (R25(c)). -/
abbrev queueOk (depth : Nat) (q : List Octet) : Prop := q.length ≤ depth

/-- No END mismatch since the last clear-all (R25(b), R157): every sub-counter is where `count` puts it, the buffers
hold nothing beyond it, and `payload_bits` is eight times the length once the length is complete. -/
abbrev Validator.inStep (t : CompleteTrigger) (v : Validator) : Prop :=
  v.count2.toNat = min (v.count.toNat - 8) 8
  ∧ v.count3.toNat = min (v.count.toNat - 16) 5
  ∧ v.count4.toNat = min (v.count.toNat - 21) 3
  ∧ v.count5.toNat = min (v.count.toNat - 24) v.payloadBits.toNat
  ∧ v.count6.toNat = v.count.toNat - 24 - v.payloadBits.toNat
  ∧ v.payloadBits.toNat = (if 24 ≤ v.count.toNat then 8 * v.nBuf.toNat else 0)
  ∧ v.count.toNat ≤ (if t = .nextBit then 31 else 30) + v.payloadBits.toNat
  ∧ v.idBuf <<< v.count3.toNat = 0
  ∧ v.nBuf <<< v.count4.toNat = 0
  ∧ v.messageBuf <<< v.count5.toNat = 0

/-- After an END mismatch (R155): the stale sub-counters of STX and ID, and a `count` that gets to 8 at most. -/
abbrev Validator.stale (v : Validator) : Prop :=
  v.count2.toNat = 8 ∧ v.count3.toNat = 5 ∧ v.count4.toNat = 0 ∧ v.count5.toNat = 0 ∧ v.count6.toNat = 0
  ∧ v.count.toNat ≤ 8

/-- The Validator's registers: in step and, when parked, at the start; or stale, and then faulted only in the STX
phase (R25(a), (b), (f); R155). -/
abbrev Validator.ok (t : CompleteTrigger) (v : Validator) : Prop :=
  (v.inStep t ∧ v.vFault = false ∧ (v.vParked = true → v.count.toNat = 0))
  ∨ (v.stale ∧ v.vParked = false ∧ (v.vFault = true → v.count.toNat = 8))

/-- The handshake (R25(a), R127, R171): parked iff paused; paused implies begun and at a group boundary. -/
abbrev Regs.handshake (r : Regs) : Prop :=
  r.resetFlag = r.val.vParked ∧ (r.resetFlag = true → r.rx.rxStarted = true ∧ r.rx.rxIdx = 0)

/-- The invariant of the registers. -/
abbrev Regs.ok (p : Params) (r : Regs) : Prop :=
  r.tdiv ≤ p.tCycles - 1 ∧ r.framer.ok ∧ queueOk p.queueDepth r.q ∧ r.val.ok p.completeTrigger ∧ r.handshake

/-- Between cycles: the primed registers are the registers, and no request waits (the model's own fields, log
entry 1). -/
abbrev State.settled (s : State) : Prop := s.nxt = s.cur ∧ s.push = none ∧ s.pop = false

/-- The invariant that every step keeps. -/
abbrev Inv (s : State) : Prop := s.cur.ok s.params ∧ s.settled

/-- `k` steps; none if one of them stops. -/
def steps : Nat → State → Option State
  | 0, s => some s
  | k + 1, s =>
    match step s with
    | .next t => steps k t
    | .fault _ => none
    | .refused _ => none

/-- A run is safe while the Validator has not faulted: a faulted Validator delivers nothing before `rst` (R196). -/
abbrev State.safe (s : State) : Prop := s.cur.val.vFault = false

end Sys2Proof.Machine
end

