-- ==== Sys2Proof/Certificates/Slice0/Obligations.lean ====
section
/-! DEFINITION. The statements about the model, each with the rule of spec/ it formalises. An equation
`exec i s = .next { s with … }` gives the whole result and the whole frame: every register, port, event and request
that is not named keeps its value. `nxt` holds the primed registers, `cur` the unprimed ones. -/

open Sys2Proof Sys2Proof.Machine

/-! ### The Framer -/

/-- R91 while the buffer has room, R92 beyond the seventh character. -/
def Obligations.CharacterIsStoredOrDiscarded : Prop :=
  ∀ s : State, s.cur.framer.fState = .accum → s.inp.rst = false → s.inp.charValid = true →
    s.inp.charData ≠ 0x0A → s.inp.charData ≠ 0x0D →
    (s.cur.framer.fLen.toNat ≤ 6 →
      exec .fChar s = .next { s with nxt := { s.nxt with framer := { s.nxt.framer with
        fBuf := s.nxt.framer.fBuf.setIfInBounds s.cur.framer.fLen.toNat s.inp.charData
        fLen := s.cur.framer.fLen + 1 } } })
    ∧ (7 ≤ s.cur.framer.fLen.toNat →
      exec .fCharOver s = .next { s with nxt := { s.nxt with framer := { s.nxt.framer with fLen := 8 } } })

/-- R93. -/
def Obligations.FTermOkStartsPush : Prop :=
  ∀ s : State, s.cur.framer.fState = .accum → s.inp.rst = false → s.inp.charValid = true →
    (s.inp.charData = 0x0A ∨ s.inp.charData = 0x0D) → s.cur.framer.fLen.toNat ≤ 7 →
    exec .fTermOk s =
      .next { s with nxt := { s.nxt with framer := { s.nxt.framer with fIdx := 0, fState := .push } } }

/-- R94. -/
def Obligations.FTermOversizeRejectsLine : Prop :=
  ∀ s : State, s.cur.framer.fState = .accum → s.inp.rst = false → s.inp.charValid = true →
    (s.inp.charData = 0x0A ∨ s.inp.charData = 0x0D) → s.cur.framer.fLen = 8 →
    exec .fTermOversize s =
      .next { s with
        nxt := { s.nxt with framer := { s.nxt.framer with fLen := 0 } }
        out := { s.out with errOversize := true }
        events := { s.events with oversizeLine := true } }

/-- R96 with the table of R95: the octet pushed is `frame_byte(f_idx)`, and `f_state` becomes `SIGNAL` after `END`. -/
def Obligations.FPushPushesFrameByte : Prop :=
  ∀ s : State, s.cur.framer.fState = .push → s.cur.q.length ≠ s.params.queueDepth →
    s.cur.framer.fLen.toNat ≤ 7 → s.cur.framer.fIdx.toNat ≤ s.cur.framer.fLen.toNat + 4 →
    ∃ v : Octet,
      (s.cur.framer.fIdx = 0 → v = 85) ∧ (s.cur.framer.fIdx = 1 → v = 65) ∧ (s.cur.framer.fIdx = 2 → v = 66)
      ∧ (s.cur.framer.fIdx = 3 → v = 0xD0 ||| s.cur.framer.fLen.setWidth 8)
      ∧ (∀ j, j < s.cur.framer.fLen.toNat → s.cur.framer.fIdx.toNat = 4 + j → s.cur.framer.fBuf[j]? = some v)
      ∧ (s.cur.framer.fIdx.toNat = 4 + s.cur.framer.fLen.toNat → v = 67)
      ∧ exec .fPush s =
        .next { s with
          push := some v
          nxt := { s.nxt with
            q := (if s.pop then s.cur.q.tail else s.cur.q) ++ [v]
            framer :=
              if s.cur.framer.fIdx.toNat = s.cur.framer.fLen.toNat + 4 then { s.nxt.framer with fState := .signal }
              else { s.nxt.framer with fIdx := s.cur.framer.fIdx + 1 } } }

/-- The model's own stop (log entry 13): `F.PUSH` faults exactly where R95 defines no `frame_byte`, and no state with
`f_len` at most 7 and `f_idx` at most `f_len + 4` is such a state. -/
def Obligations.FPushStopsOnlyBeyondTheFrame : Prop :=
  ∀ s : State, s.cur.framer.fState = .push → s.cur.q.length ≠ s.params.queueDepth →
    (exec .fPush s = .fault .frameIndex ↔
      (s.cur.framer.fLen.toNat + 4 < s.cur.framer.fIdx.toNat
        ∨ (11 ≤ s.cur.framer.fIdx.toNat ∧ s.cur.framer.fIdx.toNat < s.cur.framer.fLen.toNat + 4)))

/-- R97. -/
def Obligations.FStallChangesNothing : Prop :=
  ∀ s : State, s.cur.framer.fState = .push → s.cur.q.length = s.params.queueDepth →
    exec .fStall s = .next s ∧ exec .fPush s = .next s

/-- R98 with R172 to R174: the three signals act at once, the count is cleared, the Framer accumulates again. -/
def Obligations.FSignalRaisesTheSignals : Prop :=
  ∀ s : State, s.cur.framer.fState = .signal → s.inp.rst = false →
    exec .fSignal s =
      .next { s with nxt := { s.nxt with
        framer := { s.nxt.framer with fLen := 0, fState := .accum }
        rx :=
          if s.cur.rx.rxStarted = false then { s.nxt.rx with rxStarted := true, rxIdx := 0 }
          else if s.cur.resetFlag = true then { s.nxt.rx with rxIdx := 0 }
          else s.nxt.rx
        val := if s.cur.val.vParked = true then { s.nxt.val with vParked := false } else s.nxt.val
        resetFlag := if s.cur.resetFlag = true then false else s.nxt.resetFlag } }

/-! ### The frame octets and the input characters -/

/-- The rows U, SYNC, STX, HEADER, PAYLOAD, END (R62 to R67): each is the push of its octet at its position (R95,
R96). That a row stands for the push is the model's reading (log entry 7). -/
def Obligations.FrameOctetsArePushedAtTheirPlaces : Prop :=
  ∀ s : State, s.cur.framer.fState = .push → s.cur.q.length ≠ s.params.queueDepth → s.cur.framer.fLen.toNat ≤ 7 →
    let pushed := fun (v : Octet) (f : Framer) => (Host.Outcome.next { s with
      push := some v
      nxt := { s.nxt with q := (if s.pop then s.cur.q.tail else s.cur.q) ++ [v], framer := f } } :
        Host.Outcome State Fault Refusal)
    (s.cur.framer.fIdx = 0 → exec .u s = pushed 85 { s.nxt.framer with fIdx := 1 })
    ∧ (s.cur.framer.fIdx = 1 → exec .sync s = pushed 65 { s.nxt.framer with fIdx := 2 })
    ∧ (s.cur.framer.fIdx = 2 → exec .stx s = pushed 66 { s.nxt.framer with fIdx := 3 })
    ∧ (∀ n : BitVec 3, s.cur.framer.fIdx = 3 → s.cur.framer.fLen.toNat = n.toNat →
      exec (.header n) s = pushed (0xD0 ||| n.setWidth 8) { s.nxt.framer with fIdx := 4 })
    ∧ (∀ (c : Octet) (j : Nat), s.cur.framer.fIdx.toNat = 4 + j → j < s.cur.framer.fLen.toNat →
        s.cur.framer.fBuf[j]? = some c →
      exec (.payload c) s = pushed c { s.nxt.framer with fIdx := s.cur.framer.fIdx + 1 })
    ∧ (s.cur.framer.fIdx.toNat = 4 + s.cur.framer.fLen.toNat →
      exec .endMarker s = pushed 67 { s.nxt.framer with fState := .signal })

/-- CHAR.LF, CHAR.CR and CHAR.OTHER (R91 to R94, R99): a terminator ends or rejects the line, another character is
stored or discarded, and with `char_ready` = 0 nothing happens. -/
def Obligations.InputCharactersDriveTheFramer : Prop :=
  ∀ (s : State) (i : Instr) (c : Octet), (i = .charLf ∨ i = .charCr) → (Instr.charOther c).wf = true →
    (s.cur.framer.fState = .accum → s.inp.rst = false →
      (s.cur.framer.fLen.toNat ≤ 7 →
        exec i s = .next { s with nxt := { s.nxt with framer := { s.nxt.framer with fIdx := 0, fState := .push } } })
      ∧ (s.cur.framer.fLen = 8 →
        exec i s = .next { s with
          nxt := { s.nxt with framer := { s.nxt.framer with fLen := 0 } }
          out := { s.out with errOversize := true }
          events := { s.events with oversizeLine := true } })
      ∧ (s.cur.framer.fLen.toNat ≤ 6 →
        exec (.charOther c) s = .next { s with nxt := { s.nxt with framer := { s.nxt.framer with
          fBuf := s.nxt.framer.fBuf.setIfInBounds s.cur.framer.fLen.toNat c
          fLen := s.cur.framer.fLen + 1 } } })
      ∧ (7 ≤ s.cur.framer.fLen.toNat →
        exec (.charOther c) s =
          .next { s with nxt := { s.nxt with framer := { s.nxt.framer with fLen := 8 } } }))
    ∧ ((s.cur.framer.fState ≠ .accum ∨ s.inp.rst = true) →
      exec i s = .next s ∧ exec (.charOther c) s = .next s)

/-! ### The Transmitter -/

/-- R111 from idle, R114 at the end of an octet: the same load. -/
def Obligations.TxLoadAndTxNextStartAnOctet : Prop :=
  ∀ (s : State) (b : Octet) (bs : List Octet), s.cur.tdiv = s.params.tCycles - 1 → s.cur.q = b :: bs →
    let loaded := (Host.Outcome.next { s with
      pop := true
      nxt := { s.nxt with
        q := bs ++ s.push.toList
        tx := { txBusy := true, txByte := b, txIdx := 7, txHold := 0, lineOut := b.getLsbD 7 } } } :
        Host.Outcome State Fault Refusal)
    (s.cur.tx.txBusy = false → exec .txLoad s = loaded)
    ∧ (s.cur.tx.txBusy = true → s.cur.tx.txHold = 3 → s.cur.tx.txIdx = 0 → exec .txNext s = loaded)

/-- R112. -/
def Obligations.TxHoldCountsTheTick : Prop :=
  ∀ s : State, s.cur.tdiv = s.params.tCycles - 1 → s.cur.tx.txBusy = true → s.cur.tx.txHold.toNat < 3 →
    exec .txHold s =
      .next { s with nxt := { s.nxt with tx := { s.nxt.tx with txHold := s.cur.tx.txHold + 1 } } }

/-- R113. -/
def Obligations.TxShiftPutsTheNextBit : Prop :=
  ∀ s : State, s.cur.tdiv = s.params.tCycles - 1 → s.cur.tx.txBusy = true → s.cur.tx.txHold = 3 →
    0 < s.cur.tx.txIdx.toNat →
    exec .txShift s =
      .next { s with nxt := { s.nxt with tx := { s.nxt.tx with
        txIdx := s.cur.tx.txIdx - 1
        lineOut := s.cur.tx.txByte.getLsbD (s.cur.tx.txIdx.toNat - 1)
        txHold := 0 } } }

/-- R115, and the first sentence of R116: on the empty queue an octet that ends leaves the Transmitter idle, and an
idle one waits. -/
def Obligations.TransmitterIdlesOnTheEmptyQueue : Prop :=
  ∀ s : State, s.cur.tdiv = s.params.tCycles - 1 → s.cur.q = [] →
    (s.cur.tx.txBusy = true → s.cur.tx.txHold = 3 → s.cur.tx.txIdx = 0 →
      exec .txIdle s = .next { s with nxt := { s.nxt with tx := { s.nxt.tx with txBusy := false } } })
    ∧ (s.cur.tx.txBusy = false → exec .txWait s = .next s)

/-- R110: with `tick` = 0 a step changes no Transmitter register; in a tick cycle exactly one operation fires. -/
def Obligations.TransmitterActsOncePerTick : Prop :=
  ∀ s t : State, s.inp.rst = false → step s = .next t →
    (s.cur.tdiv ≠ s.params.tCycles - 1 → txOps s = [] ∧ t.cur.tx = s.cur.tx)
    ∧ (s.cur.tdiv = s.params.tCycles - 1 → ∃ i, txOps s = [i])

/-- A bit cell is 4·T and an octet leaves bit 7 first (41_transmitter.md section 3, which the spec derives from R111
to R115; R47): from the cycle after an octet's load, `line_out` is bit 7 - k/(4·T) of the octet k cycles later. -/
def Obligations.OctetLeavesMsbFirstInCellsOfFourTicks : Prop :=
  ∀ (s : State) (b : Octet), Inv s → 1 ≤ s.params.tCycles → s.cur.tdiv = 0 →
    s.cur.tx = { txBusy := true, txByte := b, txIdx := 7, txHold := 0, lineOut := b.getLsbD 7 } →
    (∀ i ∈ s.script, i.rst = false) →
    ∀ k, k < 32 * s.params.tCycles →
      ∃ t, steps k s = some t ∧ t.cur.tx.lineOut = b.getLsbD (7 - k / (4 * s.params.tCycles))

/-! ### The Receiver -/

/-- R172 for SIG.BEGIN, and the write of R126 for RX.BEGIN, which is the same write. -/
def Obligations.BeginSamplingStartsTheReceiver : Prop :=
  ∀ (s : State) (i : Instr), (i = .sigBegin ∨ i = .rxBegin) →
    (s.cur.framer.fState = .signal → s.inp.rst = false → s.cur.rx.rxStarted = false →
      exec i s = .next { s with nxt := { s.nxt with rx := { s.nxt.rx with rxStarted := true, rxIdx := 0 } } })
    ∧ ((s.cur.framer.fState ≠ .signal ∨ s.cur.rx.rxStarted = true) → exec i s = .next s)

/-- R126 and R127: a Receiver that has not begun, or is paused, takes no sample, publishes nothing and changes no
register. -/
def Obligations.WaitingReceiverTakesNoSample : Prop :=
  ∀ s : State, (s.cur.rx.rxStarted = false ∨ s.cur.resetFlag = true) →
    exec .rxPause s = .next s ∧ exec .rxSample s = .next s ∧ exec .rxDecideAgree s = .next s
    ∧ exec .rxDecideDrop s = .next s ∧ s.published = none

/-- R174 for SIG.RESTART and R128 for RX.RESTART, which name the same write. -/
def Obligations.RestartSamplingReleasesTheReceiver : Prop :=
  ∀ (s : State) (i : Instr), (i = .sigRestart ∨ i = .rxRestart) →
    (s.cur.framer.fState = .signal → s.inp.rst = false → s.cur.resetFlag = true →
      exec i s = .next { s with nxt := { s.nxt with resetFlag := false, rx := { s.nxt.rx with rxIdx := 0 } } })
    ∧ ((s.cur.framer.fState ≠ .signal ∨ s.cur.resetFlag = false) → exec i s = .next s)

/-- R129: the sample goes to `rx_s1` or `rx_s2` by its index, and the index counts modulo 4; in loopback the sample is
the pre-edge `line_out`. -/
def Obligations.RxSampleStoresTheSample : Prop :=
  ∀ s : State, s.cur.tdiv = s.params.tCycles - 1 → s.cur.rx.rxStarted = true → s.cur.resetFlag = false →
    exec .rxSample s =
      .next { s with nxt := { s.nxt with rx := { s.nxt.rx with
        rxS1 := if s.cur.rx.rxIdx = 1 then s.sample else s.nxt.rx.rxS1
        rxS2 := if s.cur.rx.rxIdx = 2 then s.sample else s.nxt.rx.rxS2
        rxIdx := BitVec.ofNat 2 ((s.cur.rx.rxIdx.toNat + 1) % 4) } } }
    ∧ (s.inp.line = .loopback → s.sample = s.cur.tx.lineOut)
    ∧ (∀ b, s.inp.line = .level b → s.sample = b)

/-- R130 and R131: at the end of a group the value of the two middle samples is published, to the cell and to the
Validator, if they agree; else the group is dropped with the event AmbiguousSample and no register changes. -/
def Obligations.GroupEndPublishesOrDrops : Prop :=
  ∀ s : State, s.cur.tdiv = s.params.tCycles - 1 → s.cur.rx.rxStarted = true → s.cur.resetFlag = false →
    s.cur.rx.rxIdx = 3 →
    (s.cur.rx.rxS1 = s.cur.rx.rxS2 →
      exec .rxDecideAgree s = .next { s with nxt := { s.nxt with rx := { s.nxt.rx with dbit := s.cur.rx.rxS1 } } }
      ∧ s.published = some s.cur.rx.rxS1)
    ∧ (s.cur.rx.rxS1 ≠ s.cur.rx.rxS2 →
      exec .rxDecideDrop s = .next { s with events := { s.events with ambiguousSample := true } }
      ∧ s.published = none)

/-- R130 to R132: what a group of four samples decides, for all sixteen groups; samples 0 and 3 take no part; a
Receiver that has not begun or is paused takes none of them. That the row takes the four samples from `rx_idx` = 0 is
the model's reading (log entry 9). -/
def Obligations.GroupsDecideByTheMiddleSamples : Prop :=
  ∀ (s : State) (x y : Bool),
    let after := fun (s1 s2 d : Bool) (e : Events) => (Host.Outcome.next { s with
      nxt := { s.nxt with rx := { rxStarted := true, rxIdx := 0, rxS1 := s1, rxS2 := s2, dbit := d } }
      events := e } : Host.Outcome State Fault Refusal)
    (s.cur.rx.rxStarted = true → s.cur.resetFlag = false → s.cur.rx.rxIdx = 0 →
      exec (.groupZero x y) s = after false false false s.events
      ∧ exec (.groupOne x y) s = after true true true s.events
      ∧ exec (.groupDrop01 x y) s = after false true s.cur.rx.dbit { s.events with ambiguousSample := true }
      ∧ exec (.groupDrop10 x y) s = after true false s.cur.rx.dbit { s.events with ambiguousSample := true })
    ∧ ((s.cur.rx.rxStarted = false ∨ s.cur.resetFlag = true) →
      exec (.groupZero x y) s = .next s ∧ exec (.groupOne x y) s = .next s
      ∧ exec (.groupDrop01 x y) s = .next s ∧ exec (.groupDrop10 x y) s = .next s)

/-- R129 to R133 over four steps, with T one cycle: a running Receiver at a group boundary takes the levels of four
cycles and decides by the second and third. -/
def Obligations.FourTicksDecideOneBit : Prop :=
  ∀ (s : State) (i0 i1 i2 i3 : Inputs) (rest : List Inputs) (a x y b : Bool), Inv s → s.params.tCycles = 1 →
    s.script = i0 :: i1 :: i2 :: i3 :: rest →
    i0.rst = false → i1.rst = false → i2.rst = false → i3.rst = false →
    i0.line = .level a → i1.line = .level x → i2.line = .level y → i3.line = .level b →
    s.cur.rx.rxStarted = true → s.cur.resetFlag = false → s.cur.rx.rxIdx = 0 →
    ∃ t, steps 4 s = some t ∧ t.cur.rx =
      { rxStarted := true, rxIdx := 0, rxS1 := x, rxS2 := y, dbit := if x = y then x else s.cur.rx.dbit }

/-! ### The Validator -/

/-- R140 with R130: the Validator reacts to a bit in exactly the cycles in which the Receiver publishes it and the
Validator is neither parked nor faulted. -/
def Obligations.DecidedExactlyWhenPublishedAndAwake : Prop :=
  ∀ (s : State) (d : Bool), s.decided = some d ↔
    (s.cur.val.vParked = false ∧ s.cur.val.vFault = false ∧ s.cur.tdiv = s.params.tCycles - 1
      ∧ s.cur.rx.rxStarted = true ∧ s.cur.resetFlag = false ∧ s.cur.rx.rxIdx = 3
      ∧ s.cur.rx.rxS1 = d ∧ s.cur.rx.rxS2 = d)

/-- R142: a bit of `SYNC` = 01000001, first bit at `count` = 0. -/
def Obligations.VSyncMatchesOneBit : Prop :=
  ∀ (s : State) (d : Bool), s.decided = some d → s.cur.val.count.toNat ≤ 7 →
    (d = (65 : Octet).getLsbD (7 - s.cur.val.count.toNat) →
      exec .vSync s = .next { s with nxt := { s.nxt with val := { s.cur.val with count := s.cur.val.count + 1 } } })
    ∧ (d ≠ (65 : Octet).getLsbD (7 - s.cur.val.count.toNat) →
      exec .vSync s = .next { s with
        nxt := { s.nxt with val := { s.cur.val with count := 0 } }
        events := { s.events with syncMismatch := true } })

/-- R143: the guard, then a bit of `STX` = 01000010 at `count2`. -/
def Obligations.VStxMatchesOneBit : Prop :=
  ∀ (s : State) (d : Bool), s.decided = some d → 8 ≤ s.cur.val.count.toNat → s.cur.val.count.toNat ≤ 15 →
    (7 < s.cur.val.count2.toNat →
      exec .vStx s = .next { s with
        nxt := { s.nxt with val := { s.cur.val with vFault := true } }
        events := { s.events with validatorIndexFault := true } })
    ∧ (s.cur.val.count2.toNat ≤ 7 → d = (66 : Octet).getLsbD (7 - s.cur.val.count2.toNat) →
      exec .vStx s = .next { s with nxt := { s.nxt with val :=
        { s.cur.val with count := s.cur.val.count + 1, count2 := s.cur.val.count2 + 1 } } })
    ∧ (s.cur.val.count2.toNat ≤ 7 → d ≠ (66 : Octet).getLsbD (7 - s.cur.val.count2.toNat) →
      exec .vStx s = .next { s with
        nxt := { s.nxt with val := { s.cur.val with count := 0, count2 := 0 } }
        events := { s.events with stxMismatch := true } })

/-- R144: any bit is stored at `id_buf[count3]`, index 0 the most significant; the other bits are kept. -/
def Obligations.VIdCapturesOneBit : Prop :=
  ∀ (s : State) (d : Bool), s.decided = some d → 16 ≤ s.cur.val.count.toNat → s.cur.val.count.toNat ≤ 20 →
    (4 < s.cur.val.count3.toNat →
      exec .vId s = .next { s with
        nxt := { s.nxt with val := { s.cur.val with vFault := true } }
        events := { s.events with validatorIndexFault := true } })
    ∧ (s.cur.val.count3.toNat ≤ 4 → ∃ w : BitVec 5,
      (∀ j, w.getMsbD j = if j = s.cur.val.count3.toNat then d else s.cur.val.idBuf.getMsbD j)
      ∧ exec .vId s = .next { s with nxt := { s.nxt with val :=
        { s.cur.val with idBuf := w, count3 := s.cur.val.count3 + 1, count := s.cur.val.count + 1 } } })

/-- R145: any bit is stored at `n_buf[count4]`; with the third, `payload_bits` is eight times the length. -/
def Obligations.VLengthCapturesOneBit : Prop :=
  ∀ (s : State) (d : Bool), s.decided = some d → 21 ≤ s.cur.val.count.toNat → s.cur.val.count.toNat ≤ 23 →
    (2 < s.cur.val.count4.toNat →
      exec .vLength s = .next { s with
        nxt := { s.nxt with val := { s.cur.val with vFault := true } }
        events := { s.events with validatorIndexFault := true } })
    ∧ (s.cur.val.count4.toNat ≤ 2 → ∃ (w : BitVec 3) (pb : BitVec 6),
      (∀ j, w.getMsbD j = if j = s.cur.val.count4.toNat then d else s.cur.val.nBuf.getMsbD j)
      ∧ (s.cur.val.count4.toNat = 2 → pb.toNat = 8 * w.toNat)
      ∧ (s.cur.val.count4.toNat < 2 → pb = s.cur.val.payloadBits)
      ∧ exec .vLength s = .next { s with nxt := { s.nxt with val :=
        { s.cur.val with
          nBuf := w, payloadBits := pb, count4 := s.cur.val.count4 + 1, count := s.cur.val.count + 1 } } })

/-- R146: any bit is stored at `message_buf[count5]`. -/
def Obligations.VPayloadCapturesOneBit : Prop :=
  ∀ (s : State) (d : Bool), s.decided = some d → 24 ≤ s.cur.val.count.toNat →
    s.cur.val.count.toNat ≤ 23 + s.cur.val.payloadBits.toNat →
    (55 < s.cur.val.count5.toNat →
      exec .vPayload s = .next { s with
        nxt := { s.nxt with val := { s.cur.val with vFault := true } }
        events := { s.events with validatorIndexFault := true } })
    ∧ (s.cur.val.count5.toNat ≤ 55 → ∃ w : BitVec 56,
      (∀ j, w.getMsbD j = if j = s.cur.val.count5.toNat then d else s.cur.val.messageBuf.getMsbD j)
      ∧ exec .vPayload s = .next { s with nxt := { s.nxt with val :=
        { s.cur.val with messageBuf := w, count5 := s.cur.val.count5 + 1, count := s.cur.val.count + 1 } } })

/-- R147: the guard, a bit of `END` = 01000011 at `count6`, the mismatch of R154, and under `SAME_BIT` the COMPLETE of
R149 with the seventh bit. -/
def Obligations.VEndMatchesOneBit : Prop :=
  ∀ (s : State) (d : Bool), s.decided = some d → 24 + s.cur.val.payloadBits.toNat ≤ s.cur.val.count.toNat →
    s.cur.val.count.toNat ≤ 30 + s.cur.val.payloadBits.toNat →
    (6 < s.cur.val.count6.toNat →
      exec .vEnd s = .next { s with
        nxt := { s.nxt with val := { s.cur.val with vFault := true } }
        events := { s.events with validatorIndexFault := true } })
    ∧ (s.cur.val.count6.toNat ≤ 6 → d ≠ (67 : Octet).getLsbD (7 - s.cur.val.count6.toNat) →
      exec .vEnd s = .next { s with
        nxt := { s.nxt with val := { s.cur.val with count := 0, count4 := 0, count5 := 0, count6 := 0 } }
        events := { s.events with endMismatch := true } })
    ∧ (s.cur.val.count6.toNat ≤ 6 → d = (67 : Octet).getLsbD (7 - s.cur.val.count6.toNat) →
      (s.params.completeTrigger = .nextBit ∨ s.cur.val.count.toNat < 30 + s.cur.val.payloadBits.toNat) →
      exec .vEnd s = .next { s with nxt := { s.nxt with val :=
        { s.cur.val with count6 := s.cur.val.count6 + 1, count := s.cur.val.count + 1 } } })
    ∧ (s.cur.val.count6.toNat ≤ 6 → d = (67 : Octet).getLsbD (7 - s.cur.val.count6.toNat) →
      s.params.completeTrigger = .sameBit → s.cur.val.count.toNat = 30 + s.cur.val.payloadBits.toNat →
      exec .vEnd s = exec .vComplete s
      ∧ exec .vEnd s = .next { s with
        nxt := { s.nxt with
          val := { Validator.reset with vParked := true, vFault := s.cur.val.vFault }
          resetFlag := true }
        out := { s.out with
          msgValid := true, msgId := s.cur.val.idBuf, msgLen := s.cur.val.nBuf, msgData := s.cur.val.messageBuf } })

/-- R149 at the moment of `NEXT_BIT` (R148), whatever the bit: the message of the pre-edge buffers, the Validator
State all zero, parked, the reset flag set. -/
def Obligations.VCompleteEmitsAndParks : Prop :=
  ∀ (s : State) (d : Bool), s.decided = some d → 31 + s.cur.val.payloadBits.toNat ≤ s.cur.val.count.toNat →
    exec .vComplete s = .next { s with
      nxt := { s.nxt with
        val := { count := 0, count2 := 0, count3 := 0, count4 := 0, count5 := 0, count6 := 0, idBuf := 0, nBuf := 0,
                 messageBuf := 0, payloadBits := 0, vParked := true, vFault := s.cur.val.vFault }
        resetFlag := true }
      out := { s.out with
        msgValid := true, msgId := s.cur.val.idBuf, msgLen := s.cur.val.nBuf, msgData := s.cur.val.messageBuf } }

/-- R150: the three fields of the message as sums over the capture buffers, index 0 first, octet j of the data in
bits 55-8j down to 48-8j. -/
def Obligations.MessageFieldsAreBigEndianSums : Prop :=
  ∀ v : Validator,
    v.message.id.toNat = ∑ i ∈ Finset.range 5, (v.idBuf.getMsbD i).toNat * 2 ^ (4 - i)
    ∧ v.message.len.toNat = ∑ i ∈ Finset.range 3, (v.nBuf.getMsbD i).toNat * 2 ^ (2 - i)
    ∧ ∀ j, j ≤ 6 → (v.message.data.extractLsb' (48 - 8 * j) 8).toNat =
        ∑ k ∈ Finset.range 8, (v.messageBuf.getMsbD (8 * j + k)).toNat * 2 ^ (7 - k)

/-- HEADER.RX from the octet's first bit (R144, R145, R75): five bits to `id_buf`, three to `n_buf`, any value. That
the row is the reaction to the octet's bits is the model's reading (log entry 8). -/
def Obligations.HeaderRxStoresBothFields : Prop :=
  ∀ (s : State) (id : BitVec 5) (n : BitVec 3), s.cur.val.vParked = false → s.cur.val.vFault = false →
    s.cur.val.count = 16 → s.cur.val.count3 = 0 → s.cur.val.count4 = 0 →
    exec (.headerRx id n) s = .next { s with nxt := { s.nxt with val :=
      { s.cur.val with
        count := 24, count3 := 5, count4 := 3, idBuf := id, nBuf := n
        payloadBits := BitVec.ofNat 6 (8 * n.toNat) } } }

/-- END.RX from the octet's first bit, under both values of `COMPLETE_TRIGGER` and with bit 0 of either value (R67,
R147 to R149; log entry 8): the message, all cleared, parked, paused. -/
def Obligations.EndRxCompletesTheFrame : Prop :=
  ∀ (s : State) (x : Bool), s.cur.val.vParked = false → s.cur.val.vFault = false →
    s.cur.val.count.toNat = 24 + s.cur.val.payloadBits.toNat → s.cur.val.count6 = 0 →
    exec (.endRx x) s = .next { s with
      nxt := { s.nxt with val := { Validator.reset with vParked := true }, resetFlag := true }
      out := { s.out with
        msgValid := true, msgId := s.cur.val.idBuf, msgLen := s.cur.val.nBuf, msgData := s.cur.val.messageBuf } }

/-- The receive octets on every other state (log entry 8): away from the octet's eight bits nothing changes; within
them the Validator reacts to the bits that are left, and a parked or faulted one to none. -/
def Obligations.ReceiveOctetsReactToTheBitsLeft : Prop :=
  ∀ (s : State) (id : BitVec 5) (n : BitVec 3) (x : Bool),
    ((s.cur.val.count.toNat < 16 ∨ 24 ≤ s.cur.val.count.toNat) → exec (.headerRx id n) s = .next s)
    ∧ ((s.cur.val.count.toNat < 24 + s.cur.val.payloadBits.toNat
        ∨ 32 + s.cur.val.payloadBits.toNat ≤ s.cur.val.count.toNat) → exec (.endRx x) s = .next s)
    ∧ (∀ p, s.cur.val.count.toNat = 16 + p → p < 8 →
      exec (.headerRx id n) s = .next (s.applyReaction (s.cur.val.feed s.params.completeTrigger
        (((List.range 5).map id.getMsbD ++ (List.range 3).map n.getMsbD).drop p))))
    ∧ (∀ p, s.cur.val.count.toNat = 24 + s.cur.val.payloadBits.toNat + p → p < 8 →
      exec (.endRx x) s = .next (s.applyReaction (s.cur.val.feed s.params.completeTrigger
        ([false, true, false, false, false, false, true, x].drop p))))

/-- The round trip (S3, for every line): the bits of the frame of any line of 0 to 7 octets, from the p-th bit on for
p = 0, 3, 4, 7, 8 (43_validator.md section 4, which the spec derives), bring a Validator from the all-zero state to
the message with ID 26, the line's length and its octets, and leave it all zero and parked (R151). -/
def Obligations.EveryFrameDecodesToItsLine : Prop :=
  ∀ (trigger : CompleteTrigger) (cs : List Octet) (p : Nat), cs.length ≤ 7 → p ∈ [0, 3, 4, 7, 8] →
    ∃ m : Message,
      (Validator.reset.feed trigger (((encodeFrame cs).flatMap octetBits).drop p)).msg = some m
      ∧ (Validator.reset.feed trigger (((encodeFrame cs).flatMap octetBits).drop p)).val =
        { Validator.reset with vParked := true }
      ∧ m.id = 26 ∧ m.len.toNat = cs.length
      ∧ ∀ j, j ≤ 6 → m.data.extractLsb' (48 - 8 * j) 8 = cs.getD j 0

/-! ### The fabric -/

/-- R170. -/
def Obligations.TickCountsAndWraps : Prop :=
  ∀ s : State,
    exec .tick s = .next { s with nxt := { s.nxt with
      tdiv := if s.cur.tdiv = s.params.tCycles - 1 then 0 else s.cur.tdiv + 1 } }
    ∧ (s.tick = true ↔ s.cur.tdiv = s.params.tCycles - 1)

/-- R171: the three signals act together on the pre-edge state; in any other cycle none is raised. -/
def Obligations.SigRaisesAllThree : Prop :=
  ∀ s : State,
    (s.cur.framer.fState = .signal → s.inp.rst = false →
      exec .sig s =
        .next { s with nxt := { s.nxt with
          rx :=
            if s.cur.rx.rxStarted = false then { s.nxt.rx with rxStarted := true, rxIdx := 0 }
            else if s.cur.resetFlag = true then { s.nxt.rx with rxIdx := 0 }
            else s.nxt.rx
          val := if s.cur.val.vParked = true then { s.nxt.val with vParked := false } else s.nxt.val
          resetFlag := if s.cur.resetFlag = true then false else s.nxt.resetFlag } })
    ∧ (s.cur.framer.fState ≠ .signal → exec .sig s = .next s)

/-- R173. -/
def Obligations.SigAbandonUnparksTheValidator : Prop :=
  ∀ s : State,
    (s.cur.framer.fState = .signal → s.inp.rst = false → s.cur.val.vParked = true →
      exec .sigAbandon s = .next { s with nxt := { s.nxt with val := { s.nxt.val with vParked := false } } })
    ∧ ((s.cur.framer.fState ≠ .signal ∨ s.cur.val.vParked = false) → exec .sigAbandon s = .next s)

/-- R175: signals that find nothing waiting are lost: the step after has the same started, parked and paused
registers as a Validator and a Receiver left to themselves give. -/
def Obligations.UnawaitedSignalsAreLost : Prop :=
  ∀ s t : State, s.inp.rst = false → s.cur.framer.fState = .signal → s.cur.rx.rxStarted = true →
    s.cur.resetFlag = false → s.cur.val.vParked = false → step s = .next t →
    t.cur.rx = (if s.cur.tdiv = s.params.tCycles - 1 then s.cur.rx.take s.sample else s.cur.rx)
    ∧ t.cur.resetFlag = t.out.msgValid ∧ t.cur.val.vParked = t.out.msgValid

/-- The queue over a step (R41 to R45): the oldest octet leaves exactly when the Transmitter pops, the pushed octet
joins at the tail exactly when the Framer pushes, and the octets between keep their order. -/
def Obligations.QueueIsFirstInFirstOut : Prop :=
  ∀ s t : State, s.inp.rst = false → step s = .next t →
    ∃ popped pushed : List Octet,
      s.cur.q ++ pushed = popped ++ t.cur.q ∧ popped.length ≤ 1 ∧ pushed.length ≤ 1
      ∧ (popped ≠ [] ↔ (s.cur.q ≠ [] ∧ s.cur.tdiv = s.params.tCycles - 1
          ∧ (s.cur.tx.txBusy = false ∨ (s.cur.tx.txHold = 3 ∧ s.cur.tx.txIdx = 0))))
      ∧ (pushed ≠ [] ↔ (s.cur.framer.fState = .push ∧ s.cur.q.length ≠ s.params.queueDepth))
      ∧ (∀ b ∈ popped, t.cur.tx.txByte = b ∧ t.cur.tx.lineOut = b.getLsbD 7)

/-! ### The whole machine -/

/-- A step runs what it decodes: the character accepted in a cycle, decoded, is one of the instructions of the cycle,
and the Framer's registers, the error port and the oversize event after the step are those its `exec` gives. Around
it the step takes the next inputs and counts itself. -/
def Obligations.StepRunsTheDecodedCharacter : Prop :=
  ∀ (s : State) (i : Instr), s.inp.rst = false → s.cur.framer.fState = .accum → s.inp.charValid = true →
    decodeAt .inputChar s.inp.charData = .ok i →
    i.wf = true ∧ i ∈ cycleOps s.beginCycle
    ∧ ∃ u t, exec i s.beginCycle = .next u ∧ step s = .next t
      ∧ t.cur.framer = u.nxt.framer ∧ t.out.errOversize = u.out.errOversize
      ∧ t.events.oversizeLine = u.events.oversizeLine
      ∧ t.script = s.script.tail ∧ t.cycle = s.cycle + 1 ∧ t.params = s.params

/-- The frame octet pushed in a cycle, decoded at its position, is one of the instructions of the cycle, and the
Framer's registers and the pushed octet after the step are those its `exec` gives. That a frame-octet row is an
instruction which a step runs, and whose `exec` is the Framer's push of the octet at its position, is the model's
reading (log entry 7). -/
def Obligations.StepRunsTheDecodedFrameOctet : Prop :=
  ∀ (s : State) (p : OctetPlace) (w : Octet) (i : Instr), s.inp.rst = false → s.cur.framer.fState = .push →
    s.cur.q.length ≠ s.params.queueDepth → s.cur.framer.place = some p → s.cur.framer.frameByte = some w →
    decodeAt (.octet p) w = .ok i →
    i.wf = true ∧ i ∈ cycleOps s.beginCycle
    ∧ ∃ u t, exec i s.beginCycle = .next u ∧ step s = .next t
      ∧ u.push = some w ∧ t.cur.framer = u.nxt.framer ∧ t.cur.q.getLast? = some w
      ∧ t.script = s.script.tail ∧ t.cycle = s.cycle + 1 ∧ t.params = s.params

/-- Every instruction of a cycle takes effect in it (R5, R178: no two rules write different values to one register):
whatever its `exec` changes from the start of the cycle (a register, a queue request, the message ports,
`err_oversize`, an event) is, after the step, as it made it. That a cycle also runs the rows that name a transition a
second time (the encoded patterns; SIG, SIG.BEGIN and SIG.RESTART beside F.SIGNAL, RX.BEGIN and RX.RESTART) is the
model's reading (log entry 20; for the patterns log entries 7 to 9). -/
def Obligations.StepKeepsWhatEachOperationWrites : Prop :=
  ∀ (s t : State) (i : Instr), s.inp.rst = false → step s = .next t → i ∈ cycleOps s.beginCycle →
    ∃ u, exec i s.beginCycle = .next u
      ∧ (u.nxt.tdiv = s.cur.tdiv ∨ u.nxt.tdiv = t.cur.tdiv)
      ∧ (u.nxt.framer = s.cur.framer ∨ u.nxt.framer = t.cur.framer)
      ∧ (u.nxt.tx = s.cur.tx ∨ u.nxt.tx = t.cur.tx)
      ∧ (u.nxt.rx.rxStarted = s.cur.rx.rxStarted ∨ u.nxt.rx.rxStarted = t.cur.rx.rxStarted)
      ∧ (u.nxt.rx.rxIdx = s.cur.rx.rxIdx ∨ u.nxt.rx.rxIdx = t.cur.rx.rxIdx)
      ∧ (u.nxt.rx.rxS1 = s.cur.rx.rxS1 ∨ u.nxt.rx.rxS1 = t.cur.rx.rxS1)
      ∧ (u.nxt.rx.rxS2 = s.cur.rx.rxS2 ∨ u.nxt.rx.rxS2 = t.cur.rx.rxS2)
      ∧ (u.nxt.rx.dbit = s.cur.rx.dbit ∨ u.nxt.rx.dbit = t.cur.rx.dbit)
      ∧ (u.nxt.val = s.cur.val ∨ u.nxt.val = t.cur.val)
      ∧ (u.nxt.resetFlag = s.cur.resetFlag ∨ u.nxt.resetFlag = t.cur.resetFlag)
      ∧ (∀ v, u.push = some v → t.cur.q.getLast? = some v)
      ∧ (u.pop = true → ∃ b, s.cur.q = b :: s.cur.q.tail ∧ t.cur.tx.txByte = b)
      ∧ (u.out.msgValid = true → t.out.msgValid = true ∧ t.out.msgId = u.out.msgId ∧ t.out.msgLen = u.out.msgLen
          ∧ t.out.msgData = u.out.msgData)
      ∧ (u.out.errOversize = true → t.out.errOversize = true)
      ∧ (u.events.oversizeLine = true → t.events.oversizeLine = true)
      ∧ (u.events.syncMismatch = true → t.events.syncMismatch = true)
      ∧ (u.events.stxMismatch = true → t.events.stxMismatch = true)
      ∧ (u.events.endMismatch = true → t.events.endMismatch = true)
      ∧ (u.events.ambiguousSample = true → t.events.ambiguousSample = true)
      ∧ (u.events.validatorIndexFault = true → t.events.validatorIndexFault = true)

/-- The firing conditions read the other way (log entry 11, the model's reading of "fires when"): an operation whose
condition fails changes nothing. -/
def Obligations.OperationsThatDoNotFireChangeNothing : Prop :=
  ∀ s : State,
    (firesFChar s = false → exec .fChar s = .next s) ∧ (firesFCharOver s = false → exec .fCharOver s = .next s)
    ∧ (firesFTermOk s = false → exec .fTermOk s = .next s)
    ∧ (firesFTermOversize s = false → exec .fTermOversize s = .next s)
    ∧ (firesFPush s = false → exec .fPush s = .next s) ∧ (firesFSignal s = false → exec .fSignal s = .next s)
    ∧ (firesTxLoad s = false → exec .txLoad s = .next s) ∧ (firesTxHold s = false → exec .txHold s = .next s)
    ∧ (firesTxShift s = false → exec .txShift s = .next s) ∧ (firesTxNext s = false → exec .txNext s = .next s)
    ∧ (firesTxIdle s = false → exec .txIdle s = .next s) ∧ (firesRxSample s = false → exec .rxSample s = .next s)
    ∧ (firesRxDecideAgree s = false → exec .rxDecideAgree s = .next s)
    ∧ (firesRxDecideDrop s = false → exec .rxDecideDrop s = .next s)
    ∧ (firesV .sync s = false → exec .vSync s = .next s) ∧ (firesV .stx s = false → exec .vStx s = .next s)
    ∧ (firesV .id s = false → exec .vId s = .next s) ∧ (firesV .length s = false → exec .vLength s = .next s)
    ∧ (firesV .payload s = false → exec .vPayload s = .next s)
    ∧ (firesV .endMarker s = false → exec .vEnd s = .next s)
    ∧ (firesVComplete s = false → exec .vComplete s = .next s)

/-- R26: the reset value of every register, taken at every edge with `rst` = 1, with the one-cycle outputs at 0. -/
def Obligations.ResetGivesEveryRegisterItsValue : Prop :=
  (∀ s : State, s.inp.rst = true →
    ∃ t, step s = .next t ∧ t.cur = State.reset.cur ∧ t.out.msgValid = false ∧ t.out.errOversize = false)
  ∧ State.reset.cur =
    { tdiv := 0
      framer := { fState := .accum, fLen := 0, fBuf := Vector.replicate 7 0, fIdx := 0 }
      q := []
      tx := { txBusy := false, txByte := 0, txIdx := 0, txHold := 0, lineOut := false }
      rx := { rxStarted := false, rxIdx := 0, rxS1 := false, rxS2 := false, dbit := false }
      val := { count := 0, count2 := 0, count3 := 0, count4 := 0, count5 := 0, count6 := 0, idBuf := 0, nBuf := 0,
               messageBuf := 0, payloadBits := 0, vParked := false, vFault := false }
      resetFlag := false }

/-- R215: a cycle with `rst` = 1 wins over every rule, whatever the state. -/
def Obligations.ResetWinsOverEveryRule : Prop :=
  ∀ s : State, s.inp.rst = true →
    ∃ t, step s = .next t ∧ t.cur = State.reset.cur ∧ t.out.msgValid = false ∧ t.out.msgId = 0 ∧ t.out.msgLen = 0
      ∧ t.out.msgData = 0 ∧ t.out.errOversize = false ∧ t.out.charReady = false ∧ s.accepts = false
      ∧ s.sigRaised = false ∧ t.params = s.params ∧ t.script = s.script.tail

/-- R217 (derived by the spec): with no character offered the block stays in the reset condition; only the divider
moves, whatever is on the line. -/
def Obligations.NothingHappensUntilAFirstLine : Prop :=
  ∀ s : State, s.inp.rst = false → s.inp.charValid = false →
    s.cur = { Regs.reset with tdiv := s.cur.tdiv } →
    ∃ t, step s = .next t
      ∧ t.cur = { Regs.reset with tdiv := if s.cur.tdiv = s.params.tCycles - 1 then 0 else s.cur.tdiv + 1 }
      ∧ t.out.msgValid = false ∧ t.out.errOversize = false

/-- The invariant holds in the reset state, for every choice of parameters. -/
def Obligations.ResetStateMeetsInvariant : Prop :=
  ∀ p : Params, Inv { State.reset with params := p }

/-- The invariant of 10_state.md section 5 (which the spec derives) and R157, on every state that meets it: every step
keeps it. -/
def Obligations.EveryStepKeepsInvariant : Prop :=
  ∀ s t : State, Inv s → step s = .next t → Inv t

/-- Under the invariant the machine never stops: every step answers a next state. -/
def Obligations.NoStepStopsUnderInvariant : Prop :=
  ∀ s : State, Inv s → ∃ t, step s = .next t

/-- R155 (derived by the spec): after an END mismatch no step without reset leaves the stale state or emits a
message. -/
def Obligations.StaleValidatorNeverDelivers : Prop :=
  ∀ s t : State, Inv s → s.cur.val.stale → s.inp.rst = false → step s = .next t →
    t.cur.val.stale ∧ t.out.msgValid = false

/-- R153, R196: a faulted Validator reacts to nothing and stays faulted, while the rest of the block goes on. -/
def Obligations.FaultedValidatorIsFrozenUntilReset : Prop :=
  ∀ s t : State, s.cur.val.vFault = true → s.cur.val.vParked = false → s.inp.rst = false → step s = .next t →
    t.cur.val = s.cur.val ∧ t.out.msgValid = false

/-- R72: in a message that is emitted, octets `msg_len` to 6 of `msg_data` are 0. -/
def Obligations.EmittedMessagesAreZeroFilled : Prop :=
  ∀ s t : State, Inv s → step s = .next t → t.out.msgValid = true →
    ∀ j, t.out.msgLen.toNat ≤ j → j ≤ 6 → t.out.msgData.extractLsb' (48 - 8 * j) 8 = 0

/-- R23: the output ports of every cycle: `char_ready` iff the Framer accumulates and `rst` = 0; `msg_valid` in the
cycle of COMPLETE, with the decoded message, and the three message ports 0 in every other; `err_oversize` when an
oversized line is rejected; `line_out` and `v_fault` are the registers. -/
def Obligations.PortsShowTheCycle : Prop :=
  ∀ s t : State, step s = .next t →
    (t.out.charReady = true ↔ (s.cur.framer.fState = .accum ∧ s.inp.rst = false))
    ∧ (t.out.msgValid = true ↔ (firesVComplete s = true ∧ s.inp.rst = false))
    ∧ (t.out.msgValid = true → t.out.msgId = s.cur.val.message.id ∧ t.out.msgLen = s.cur.val.message.len
        ∧ t.out.msgData = s.cur.val.message.data)
    ∧ (t.out.msgValid = false → t.out.msgId = 0 ∧ t.out.msgLen = 0 ∧ t.out.msgData = 0)
    ∧ (t.out.errOversize = true ↔ (firesFTermOversize s = true ∧ s.inp.rst = false))
    ∧ t.out.lineOut = s.cur.tx.lineOut ∧ t.out.vFault = s.cur.val.vFault

/-- R199 (derived by the spec): in a cycle the Validator raises at most one of its four events, and none together
with AmbiguousSample. -/
def Obligations.AtMostOneEventPerPart : Prop :=
  ∀ s t : State, step s = .next t →
    (t.events.syncMismatch.toNat + t.events.stxMismatch.toNat + t.events.endMismatch.toNat
      + t.events.validatorIndexFault.toNat + t.events.ambiguousSample.toNat ≤ 1)
    ∧ (t.events.oversizeLine = true → s.cur.framer.fState = .accum)

/-- Two instances share no state but the line (R205): what one does in a cycle depends on the other through its
pre-edge `line_out` alone. -/
def Obligations.BoardsShareOnlyTheLine : Prop :=
  ∀ (a b b' : State) (p p' : Pair), b.cur.tx.lineOut = b'.cur.tx.lineOut →
    Pair.step { a := a, b := b } = .next p → Pair.step { a := a, b := b' } = .next p' → p.a = p'.a

/-! ### Encodings -/

/-- Decode and encode agree: every well-formed encoded pattern has one word, and that word, read at the pattern's
place, is the pattern again, for every value of every field. -/
def Obligations.DecodeInvertsEncode : Prop :=
  ∀ (i : Instr) (p : Place), i.wf = true → placeOf i = some p → ∃ w, encode i = [w] ∧ decodeAt p w = .ok i

/-- The other direction: what a place decodes is well-formed, belongs there, and encodes to the word read. -/
def Obligations.EncodeInvertsDecode : Prop :=
  ∀ (p : Place) (w : Octet) (i : Instr), decodeAt p w = .ok i → i.wf = true ∧ placeOf i = some p ∧ encode i = [w]

/-- R60, R61: the frame of a line of 0 to 7 payload characters has length + 5 octets and decodes, octet by octet, to
its instructions. -/
def Obligations.FramesDecodeToTheirOctets : Prop :=
  ∀ cs : List Octet, cs.length ≤ 7 → (∀ c ∈ cs, isTerminator c = false) →
    (encodeFrame cs).length = cs.length + 5 ∧ decodeFrame (encodeFrame cs) = .ok (frameInstrs cs)

/-- Words written out from the encodings of 30_encoding.md: the table reader gives their instructions. -/
def Obligations.WrittenWordsDecode : Prop :=
  decodeTableWord 8 0b01010101 = some .u ∧ decodeTableWord 8 0b01000001 = some .sync
  ∧ decodeTableWord 8 0b01000010 = some .stx ∧ decodeTableWord 8 0b11010101 = some (.header 5)
  ∧ decodeTableWord 8 0b01000011 = some .endMarker ∧ decodeTableWord 8 0b00001010 = some .charLf
  ∧ decodeTableWord 8 0b00001101 = some .charCr ∧ decodeTableWord 4 0b1011 = some (.groupDrop01 true true)
  ∧ decodeAt (.octetRx .header) 0b10110011 = .ok (.headerRx 0b10110 0b011)
  ∧ decodeAt (.octetRx .endMarker) 0b01000010 = .ok (.endRx false)
end

