-- ==== Sys2Proof/Laws/State.lean ====
section
/-! SUPPORT. One lemma per field per update of the state, each true by rfl. -/

namespace Sys2Proof.Machine

variable (s : State)

/-! ### updFramer -/

@[simp] theorem updFramer_params (f : Framer → Framer) : (s.updFramer f).params = s.params := rfl
@[simp] theorem updFramer_cur (f : Framer → Framer) : (s.updFramer f).cur = s.cur := rfl
@[simp] theorem updFramer_push (f : Framer → Framer) : (s.updFramer f).push = s.push := rfl
@[simp] theorem updFramer_pop (f : Framer → Framer) : (s.updFramer f).pop = s.pop := rfl
@[simp] theorem updFramer_out (f : Framer → Framer) : (s.updFramer f).out = s.out := rfl
@[simp] theorem updFramer_events (f : Framer → Framer) : (s.updFramer f).events = s.events := rfl
@[simp] theorem updFramer_script (f : Framer → Framer) : (s.updFramer f).script = s.script := rfl
@[simp] theorem updFramer_cycle (f : Framer → Framer) : (s.updFramer f).cycle = s.cycle := rfl
@[simp] theorem updFramer_nxt_tdiv (f : Framer → Framer) : (s.updFramer f).nxt.tdiv = s.nxt.tdiv := rfl
@[simp] theorem updFramer_nxt_framer (f : Framer → Framer) : (s.updFramer f).nxt.framer = f s.nxt.framer := rfl
@[simp] theorem updFramer_nxt_q (f : Framer → Framer) : (s.updFramer f).nxt.q = s.nxt.q := rfl
@[simp] theorem updFramer_nxt_tx (f : Framer → Framer) : (s.updFramer f).nxt.tx = s.nxt.tx := rfl
@[simp] theorem updFramer_nxt_rx (f : Framer → Framer) : (s.updFramer f).nxt.rx = s.nxt.rx := rfl
@[simp] theorem updFramer_nxt_val (f : Framer → Framer) : (s.updFramer f).nxt.val = s.nxt.val := rfl
@[simp] theorem updFramer_nxt_resetFlag (f : Framer → Framer) : (s.updFramer f).nxt.resetFlag = s.nxt.resetFlag := rfl

/-! ### updTx -/

@[simp] theorem updTx_params (f : Transmitter → Transmitter) : (s.updTx f).params = s.params := rfl
@[simp] theorem updTx_cur (f : Transmitter → Transmitter) : (s.updTx f).cur = s.cur := rfl
@[simp] theorem updTx_push (f : Transmitter → Transmitter) : (s.updTx f).push = s.push := rfl
@[simp] theorem updTx_pop (f : Transmitter → Transmitter) : (s.updTx f).pop = s.pop := rfl
@[simp] theorem updTx_out (f : Transmitter → Transmitter) : (s.updTx f).out = s.out := rfl
@[simp] theorem updTx_events (f : Transmitter → Transmitter) : (s.updTx f).events = s.events := rfl
@[simp] theorem updTx_script (f : Transmitter → Transmitter) : (s.updTx f).script = s.script := rfl
@[simp] theorem updTx_cycle (f : Transmitter → Transmitter) : (s.updTx f).cycle = s.cycle := rfl
@[simp] theorem updTx_nxt_tdiv (f : Transmitter → Transmitter) : (s.updTx f).nxt.tdiv = s.nxt.tdiv := rfl
@[simp] theorem updTx_nxt_framer (f : Transmitter → Transmitter) : (s.updTx f).nxt.framer = s.nxt.framer := rfl
@[simp] theorem updTx_nxt_q (f : Transmitter → Transmitter) : (s.updTx f).nxt.q = s.nxt.q := rfl
@[simp] theorem updTx_nxt_tx (f : Transmitter → Transmitter) : (s.updTx f).nxt.tx = f s.nxt.tx := rfl
@[simp] theorem updTx_nxt_rx (f : Transmitter → Transmitter) : (s.updTx f).nxt.rx = s.nxt.rx := rfl
@[simp] theorem updTx_nxt_val (f : Transmitter → Transmitter) : (s.updTx f).nxt.val = s.nxt.val := rfl
@[simp] theorem updTx_nxt_resetFlag (f : Transmitter → Transmitter) : (s.updTx f).nxt.resetFlag = s.nxt.resetFlag := rfl

/-! ### updRx -/

@[simp] theorem updRx_params (f : Receiver → Receiver) : (s.updRx f).params = s.params := rfl
@[simp] theorem updRx_cur (f : Receiver → Receiver) : (s.updRx f).cur = s.cur := rfl
@[simp] theorem updRx_push (f : Receiver → Receiver) : (s.updRx f).push = s.push := rfl
@[simp] theorem updRx_pop (f : Receiver → Receiver) : (s.updRx f).pop = s.pop := rfl
@[simp] theorem updRx_out (f : Receiver → Receiver) : (s.updRx f).out = s.out := rfl
@[simp] theorem updRx_events (f : Receiver → Receiver) : (s.updRx f).events = s.events := rfl
@[simp] theorem updRx_script (f : Receiver → Receiver) : (s.updRx f).script = s.script := rfl
@[simp] theorem updRx_cycle (f : Receiver → Receiver) : (s.updRx f).cycle = s.cycle := rfl
@[simp] theorem updRx_nxt_tdiv (f : Receiver → Receiver) : (s.updRx f).nxt.tdiv = s.nxt.tdiv := rfl
@[simp] theorem updRx_nxt_framer (f : Receiver → Receiver) : (s.updRx f).nxt.framer = s.nxt.framer := rfl
@[simp] theorem updRx_nxt_q (f : Receiver → Receiver) : (s.updRx f).nxt.q = s.nxt.q := rfl
@[simp] theorem updRx_nxt_tx (f : Receiver → Receiver) : (s.updRx f).nxt.tx = s.nxt.tx := rfl
@[simp] theorem updRx_nxt_rx (f : Receiver → Receiver) : (s.updRx f).nxt.rx = f s.nxt.rx := rfl
@[simp] theorem updRx_nxt_val (f : Receiver → Receiver) : (s.updRx f).nxt.val = s.nxt.val := rfl
@[simp] theorem updRx_nxt_resetFlag (f : Receiver → Receiver) : (s.updRx f).nxt.resetFlag = s.nxt.resetFlag := rfl

/-! ### setTxBusy -/

@[simp] theorem setTxBusy_params (b : Bool) : (s.setTxBusy b).params = s.params := rfl
@[simp] theorem setTxBusy_cur (b : Bool) : (s.setTxBusy b).cur = s.cur := rfl
@[simp] theorem setTxBusy_push (b : Bool) : (s.setTxBusy b).push = s.push := rfl
@[simp] theorem setTxBusy_pop (b : Bool) : (s.setTxBusy b).pop = s.pop := rfl
@[simp] theorem setTxBusy_out (b : Bool) : (s.setTxBusy b).out = s.out := rfl
@[simp] theorem setTxBusy_events (b : Bool) : (s.setTxBusy b).events = s.events := rfl
@[simp] theorem setTxBusy_script (b : Bool) : (s.setTxBusy b).script = s.script := rfl
@[simp] theorem setTxBusy_cycle (b : Bool) : (s.setTxBusy b).cycle = s.cycle := rfl
@[simp] theorem setTxBusy_nxt_tdiv (b : Bool) : (s.setTxBusy b).nxt.tdiv = s.nxt.tdiv := rfl
@[simp] theorem setTxBusy_nxt_framer (b : Bool) : (s.setTxBusy b).nxt.framer = s.nxt.framer := rfl
@[simp] theorem setTxBusy_nxt_q (b : Bool) : (s.setTxBusy b).nxt.q = s.nxt.q := rfl
@[simp] theorem setTxBusy_nxt_tx (b : Bool) : (s.setTxBusy b).nxt.tx = { s.nxt.tx with txBusy := b } := rfl
@[simp] theorem setTxBusy_nxt_rx (b : Bool) : (s.setTxBusy b).nxt.rx = s.nxt.rx := rfl
@[simp] theorem setTxBusy_nxt_val (b : Bool) : (s.setTxBusy b).nxt.val = s.nxt.val := rfl
@[simp] theorem setTxBusy_nxt_resetFlag (b : Bool) : (s.setTxBusy b).nxt.resetFlag = s.nxt.resetFlag := rfl

/-! ### setRxStarted -/

@[simp] theorem setRxStarted_params : (s.setRxStarted).params = s.params := rfl
@[simp] theorem setRxStarted_cur : (s.setRxStarted).cur = s.cur := rfl
@[simp] theorem setRxStarted_push : (s.setRxStarted).push = s.push := rfl
@[simp] theorem setRxStarted_pop : (s.setRxStarted).pop = s.pop := rfl
@[simp] theorem setRxStarted_out : (s.setRxStarted).out = s.out := rfl
@[simp] theorem setRxStarted_events : (s.setRxStarted).events = s.events := rfl
@[simp] theorem setRxStarted_script : (s.setRxStarted).script = s.script := rfl
@[simp] theorem setRxStarted_cycle : (s.setRxStarted).cycle = s.cycle := rfl
@[simp] theorem setRxStarted_nxt_tdiv : (s.setRxStarted).nxt.tdiv = s.nxt.tdiv := rfl
@[simp] theorem setRxStarted_nxt_framer : (s.setRxStarted).nxt.framer = s.nxt.framer := rfl
@[simp] theorem setRxStarted_nxt_q : (s.setRxStarted).nxt.q = s.nxt.q := rfl
@[simp] theorem setRxStarted_nxt_tx : (s.setRxStarted).nxt.tx = s.nxt.tx := rfl
@[simp] theorem setRxStarted_nxt_rx : (s.setRxStarted).nxt.rx = { s.nxt.rx with rxStarted := true } := rfl
@[simp] theorem setRxStarted_nxt_val : (s.setRxStarted).nxt.val = s.nxt.val := rfl
@[simp] theorem setRxStarted_nxt_resetFlag : (s.setRxStarted).nxt.resetFlag = s.nxt.resetFlag := rfl

/-! ### setResetFlag -/

@[simp] theorem setResetFlag_params (b : Bool) : (s.setResetFlag b).params = s.params := rfl
@[simp] theorem setResetFlag_cur (b : Bool) : (s.setResetFlag b).cur = s.cur := rfl
@[simp] theorem setResetFlag_push (b : Bool) : (s.setResetFlag b).push = s.push := rfl
@[simp] theorem setResetFlag_pop (b : Bool) : (s.setResetFlag b).pop = s.pop := rfl
@[simp] theorem setResetFlag_out (b : Bool) : (s.setResetFlag b).out = s.out := rfl
@[simp] theorem setResetFlag_events (b : Bool) : (s.setResetFlag b).events = s.events := rfl
@[simp] theorem setResetFlag_script (b : Bool) : (s.setResetFlag b).script = s.script := rfl
@[simp] theorem setResetFlag_cycle (b : Bool) : (s.setResetFlag b).cycle = s.cycle := rfl
@[simp] theorem setResetFlag_nxt_tdiv (b : Bool) : (s.setResetFlag b).nxt.tdiv = s.nxt.tdiv := rfl
@[simp] theorem setResetFlag_nxt_framer (b : Bool) : (s.setResetFlag b).nxt.framer = s.nxt.framer := rfl
@[simp] theorem setResetFlag_nxt_q (b : Bool) : (s.setResetFlag b).nxt.q = s.nxt.q := rfl
@[simp] theorem setResetFlag_nxt_tx (b : Bool) : (s.setResetFlag b).nxt.tx = s.nxt.tx := rfl
@[simp] theorem setResetFlag_nxt_rx (b : Bool) : (s.setResetFlag b).nxt.rx = s.nxt.rx := rfl
@[simp] theorem setResetFlag_nxt_val (b : Bool) : (s.setResetFlag b).nxt.val = s.nxt.val := rfl
@[simp] theorem setResetFlag_nxt_resetFlag (b : Bool) : (s.setResetFlag b).nxt.resetFlag = b := rfl

/-! ### clearParked -/

@[simp] theorem clearParked_params : (s.clearParked).params = s.params := rfl
@[simp] theorem clearParked_cur : (s.clearParked).cur = s.cur := rfl
@[simp] theorem clearParked_push : (s.clearParked).push = s.push := rfl
@[simp] theorem clearParked_pop : (s.clearParked).pop = s.pop := rfl
@[simp] theorem clearParked_out : (s.clearParked).out = s.out := rfl
@[simp] theorem clearParked_events : (s.clearParked).events = s.events := rfl
@[simp] theorem clearParked_script : (s.clearParked).script = s.script := rfl
@[simp] theorem clearParked_cycle : (s.clearParked).cycle = s.cycle := rfl
@[simp] theorem clearParked_nxt_tdiv : (s.clearParked).nxt.tdiv = s.nxt.tdiv := rfl
@[simp] theorem clearParked_nxt_framer : (s.clearParked).nxt.framer = s.nxt.framer := rfl
@[simp] theorem clearParked_nxt_q : (s.clearParked).nxt.q = s.nxt.q := rfl
@[simp] theorem clearParked_nxt_tx : (s.clearParked).nxt.tx = s.nxt.tx := rfl
@[simp] theorem clearParked_nxt_rx : (s.clearParked).nxt.rx = s.nxt.rx := rfl
@[simp] theorem clearParked_nxt_val : (s.clearParked).nxt.val = { s.nxt.val with vParked := false } := rfl
@[simp] theorem clearParked_nxt_resetFlag : (s.clearParked).nxt.resetFlag = s.nxt.resetFlag := rfl

/-! ### requeue -/

@[simp] theorem requeue_params : (s.requeue).params = s.params := rfl
@[simp] theorem requeue_cur : (s.requeue).cur = s.cur := rfl
@[simp] theorem requeue_push : (s.requeue).push = s.push := rfl
@[simp] theorem requeue_pop : (s.requeue).pop = s.pop := rfl
@[simp] theorem requeue_out : (s.requeue).out = s.out := rfl
@[simp] theorem requeue_events : (s.requeue).events = s.events := rfl
@[simp] theorem requeue_script : (s.requeue).script = s.script := rfl
@[simp] theorem requeue_cycle : (s.requeue).cycle = s.cycle := rfl
@[simp] theorem requeue_nxt_tdiv : (s.requeue).nxt.tdiv = s.nxt.tdiv := rfl
@[simp] theorem requeue_nxt_framer : (s.requeue).nxt.framer = s.nxt.framer := rfl
@[simp] theorem requeue_nxt_q : (s.requeue).nxt.q = (if s.pop then s.cur.q.tail else s.cur.q) ++ s.push.toList := rfl
@[simp] theorem requeue_nxt_tx : (s.requeue).nxt.tx = s.nxt.tx := rfl
@[simp] theorem requeue_nxt_rx : (s.requeue).nxt.rx = s.nxt.rx := rfl
@[simp] theorem requeue_nxt_val : (s.requeue).nxt.val = s.nxt.val := rfl
@[simp] theorem requeue_nxt_resetFlag : (s.requeue).nxt.resetFlag = s.nxt.resetFlag := rfl

/-! ### queuePush -/

@[simp] theorem queuePush_params (v : Octet) : (s.queuePush v).params = s.params := rfl
@[simp] theorem queuePush_cur (v : Octet) : (s.queuePush v).cur = s.cur := rfl
@[simp] theorem queuePush_push (v : Octet) : (s.queuePush v).push = some v := rfl
@[simp] theorem queuePush_pop (v : Octet) : (s.queuePush v).pop = s.pop := rfl
@[simp] theorem queuePush_out (v : Octet) : (s.queuePush v).out = s.out := rfl
@[simp] theorem queuePush_events (v : Octet) : (s.queuePush v).events = s.events := rfl
@[simp] theorem queuePush_script (v : Octet) : (s.queuePush v).script = s.script := rfl
@[simp] theorem queuePush_cycle (v : Octet) : (s.queuePush v).cycle = s.cycle := rfl
@[simp] theorem queuePush_nxt_tdiv (v : Octet) : (s.queuePush v).nxt.tdiv = s.nxt.tdiv := rfl
@[simp] theorem queuePush_nxt_framer (v : Octet) : (s.queuePush v).nxt.framer = s.nxt.framer := rfl
@[simp] theorem queuePush_nxt_q (v : Octet) : (s.queuePush v).nxt.q = (if s.pop then s.cur.q.tail else s.cur.q) ++ [v] := rfl
@[simp] theorem queuePush_nxt_tx (v : Octet) : (s.queuePush v).nxt.tx = s.nxt.tx := rfl
@[simp] theorem queuePush_nxt_rx (v : Octet) : (s.queuePush v).nxt.rx = s.nxt.rx := rfl
@[simp] theorem queuePush_nxt_val (v : Octet) : (s.queuePush v).nxt.val = s.nxt.val := rfl
@[simp] theorem queuePush_nxt_resetFlag (v : Octet) : (s.queuePush v).nxt.resetFlag = s.nxt.resetFlag := rfl

/-! ### queuePop -/

@[simp] theorem queuePop_params : (s.queuePop).params = s.params := rfl
@[simp] theorem queuePop_cur : (s.queuePop).cur = s.cur := rfl
@[simp] theorem queuePop_push : (s.queuePop).push = s.push := rfl
@[simp] theorem queuePop_pop : (s.queuePop).pop = true := rfl
@[simp] theorem queuePop_out : (s.queuePop).out = s.out := rfl
@[simp] theorem queuePop_events : (s.queuePop).events = s.events := rfl
@[simp] theorem queuePop_script : (s.queuePop).script = s.script := rfl
@[simp] theorem queuePop_cycle : (s.queuePop).cycle = s.cycle := rfl
@[simp] theorem queuePop_nxt_tdiv : (s.queuePop).nxt.tdiv = s.nxt.tdiv := rfl
@[simp] theorem queuePop_nxt_framer : (s.queuePop).nxt.framer = s.nxt.framer := rfl
@[simp] theorem queuePop_nxt_q : (s.queuePop).nxt.q = s.cur.q.tail ++ s.push.toList := rfl
@[simp] theorem queuePop_nxt_tx : (s.queuePop).nxt.tx = s.nxt.tx := rfl
@[simp] theorem queuePop_nxt_rx : (s.queuePop).nxt.rx = s.nxt.rx := rfl
@[simp] theorem queuePop_nxt_val : (s.queuePop).nxt.val = s.nxt.val := rfl
@[simp] theorem queuePop_nxt_resetFlag : (s.queuePop).nxt.resetFlag = s.nxt.resetFlag := rfl

/-! ### raise -/

@[simp] theorem raise_params (e : Events) : (s.raise e).params = s.params := rfl
@[simp] theorem raise_cur (e : Events) : (s.raise e).cur = s.cur := rfl
@[simp] theorem raise_nxt (e : Events) : (s.raise e).nxt = s.nxt := rfl
@[simp] theorem raise_push (e : Events) : (s.raise e).push = s.push := rfl
@[simp] theorem raise_pop (e : Events) : (s.raise e).pop = s.pop := rfl
@[simp] theorem raise_out (e : Events) : (s.raise e).out = s.out := rfl
@[simp] theorem raise_events (e : Events) : (s.raise e).events = s.events.merge e := rfl
@[simp] theorem raise_script (e : Events) : (s.raise e).script = s.script := rfl
@[simp] theorem raise_cycle (e : Events) : (s.raise e).cycle = s.cycle := rfl

/-! ### emitMessage -/

@[simp] theorem emitMessage_params (m : Message) : (s.emitMessage m).params = s.params := rfl
@[simp] theorem emitMessage_cur (m : Message) : (s.emitMessage m).cur = s.cur := rfl
@[simp] theorem emitMessage_nxt (m : Message) : (s.emitMessage m).nxt = s.nxt := rfl
@[simp] theorem emitMessage_push (m : Message) : (s.emitMessage m).push = s.push := rfl
@[simp] theorem emitMessage_pop (m : Message) : (s.emitMessage m).pop = s.pop := rfl
@[simp] theorem emitMessage_out (m : Message) : (s.emitMessage m).out = { s.out with msgValid := true, msgId := m.id, msgLen := m.len, msgData := m.data } := rfl
@[simp] theorem emitMessage_events (m : Message) : (s.emitMessage m).events = s.events := rfl
@[simp] theorem emitMessage_script (m : Message) : (s.emitMessage m).script = s.script := rfl
@[simp] theorem emitMessage_cycle (m : Message) : (s.emitMessage m).cycle = s.cycle := rfl

/-! ### publish -/

@[simp] theorem publish_params (d : Bool) : (s.publish d).params = s.params := rfl
@[simp] theorem publish_cur (d : Bool) : (s.publish d).cur = s.cur := rfl
@[simp] theorem publish_push (d : Bool) : (s.publish d).push = s.push := rfl
@[simp] theorem publish_pop (d : Bool) : (s.publish d).pop = s.pop := rfl
@[simp] theorem publish_out (d : Bool) : (s.publish d).out = s.out := rfl
@[simp] theorem publish_events (d : Bool) : (s.publish d).events = s.events := rfl
@[simp] theorem publish_script (d : Bool) : (s.publish d).script = s.script := rfl
@[simp] theorem publish_cycle (d : Bool) : (s.publish d).cycle = s.cycle := rfl
@[simp] theorem publish_nxt_tdiv (d : Bool) : (s.publish d).nxt.tdiv = s.nxt.tdiv := rfl
@[simp] theorem publish_nxt_framer (d : Bool) : (s.publish d).nxt.framer = s.nxt.framer := rfl
@[simp] theorem publish_nxt_q (d : Bool) : (s.publish d).nxt.q = s.nxt.q := rfl
@[simp] theorem publish_nxt_tx (d : Bool) : (s.publish d).nxt.tx = s.nxt.tx := rfl
@[simp] theorem publish_nxt_rx (d : Bool) : (s.publish d).nxt.rx = { s.nxt.rx with dbit := d } := rfl
@[simp] theorem publish_nxt_val (d : Bool) : (s.publish d).nxt.val = s.nxt.val := rfl
@[simp] theorem publish_nxt_resetFlag (d : Bool) : (s.publish d).nxt.resetFlag = s.nxt.resetFlag := rfl

end Sys2Proof.Machine
end

