-- ==== Sys2Proof/Laws/Ops.lean ====
section
/-! SUPPORT. For each shared operation, one lemma that says once everything it does. -/

namespace Sys2Proof.Machine

/-! ### Bit fields -/

/-- Writing one bit of a capture buffer: that bit is the written one, every other bit is kept. -/
theorem getMsbD_setBit (w : Nat) (a : BitVec w) (i j : Nat) (b : Bool) (hi : i < w) :
    (setBit w a i b).getMsbD j = if j = i then b else a.getMsbD j := by
  unfold setBit
  rw [if_pos hi]
  by_cases hj : j < w
  · have e : (w - 1 - j = w - 1 - i) ↔ j = i := by omega
    cases b <;> by_cases hji : j = i <;>
      simp [BitVec.getMsbD, hj, hji, BitVec.getLsbD_shiftLeft, BitVec.getLsbD_one, hi] <;> omega
  · have : j ≠ i := by omega
    simp [BitVec.getMsbD, hj, this]

/-- A write outside a capture buffer writes nothing. -/
theorem setBit_of_le (w : Nat) (a : BitVec w) (i : Nat) (b : Bool) (hi : w ≤ i) : setBit w a i b = a := by
  simp [setBit, Nat.not_lt.mpr hi]

/-! ### The queue -/

/-- Every queue request is resolved to one list: the rest after the pop, then the pushed octet. -/
theorem requeue_length_le (s : State) (d : Nat) (hq : s.cur.q.length ≤ d)
    (hp : s.push.isSome = true → s.cur.q.length < d) : s.requeue.nxt.q.length ≤ d := by
  cases hs : s.push <;> cases hb : s.pop <;> simp [hs, hb] at hp ⊢ <;> omega

/-! ### The Framer -/

theorem emitOctet_eq (v : Octet) (s : State) :
    s.emitOctet v =
      { s with
        push := some v
        nxt := { s.nxt with
          q := (if s.pop then s.cur.q.tail else s.cur.q) ++ [v]
          framer := if s.cur.framer.atEnd then { s.nxt.framer with fState := .signal }
                    else { s.nxt.framer with fIdx := s.cur.framer.fIdx + 1 } } } := rfl

theorem storeChar_eq (c : Octet) (s : State) :
    s.storeChar c =
      { s with nxt := { s.nxt with framer := { s.nxt.framer with
          fBuf := s.nxt.framer.fBuf.setIfInBounds s.cur.framer.fLen.toNat c
          fLen := s.cur.framer.fLen + 1 } } } := rfl

theorem dropChar_eq (s : State) :
    s.dropChar = { s with nxt := { s.nxt with framer := { s.nxt.framer with fLen := 8 } } } := rfl

theorem startPush_eq (s : State) :
    s.startPush = { s with nxt := { s.nxt with framer := { s.nxt.framer with fIdx := 0, fState := .push } } } := rfl

theorem rejectLine_eq (s : State) :
    s.rejectLine =
      { s with
        nxt := { s.nxt with framer := { s.nxt.framer with fLen := 0 } }
        out := { s.out with errOversize := true }
        events := s.events.merge { Events.none with oversizeLine := true } } := rfl

/-! ### The Transmitter -/

theorem loadOctet_nil (s : State) (h : s.cur.q = []) : s.loadOctet = s := by
  simp [State.loadOctet, h]

theorem loadOctet_cons (s : State) (b : Octet) (bs : List Octet) (h : s.cur.q = b :: bs) :
    s.loadOctet =
      { s with
        pop := true
        nxt := { s.nxt with
          q := bs ++ s.push.toList
          tx := { s.nxt.tx with
            txByte := b, txIdx := 7, txHold := 0, lineOut := b.getLsbD 7, txBusy := true } } } := by
  simp [State.loadOctet, State.queuePop, State.requeue, State.updTx, State.setTxBusy, h]

/-! ### The signals -/

theorem beginSampling_eq (s : State) :
    s.beginSampling =
      { s with nxt := { s.nxt with rx :=
          if s.sigRaised && !s.cur.rx.rxStarted then { s.nxt.rx with rxStarted := true, rxIdx := 0 }
          else s.nxt.rx } } := by
  unfold State.beginSampling; split <;> rfl

theorem abandonWait_eq (s : State) :
    s.abandonWait =
      { s with nxt := { s.nxt with val :=
          if s.sigRaised && s.cur.val.vParked then { s.nxt.val with vParked := false } else s.nxt.val } } := by
  unfold State.abandonWait; split <;> rfl

theorem restartSampling_eq (s : State) :
    s.restartSampling =
      { s with nxt := { s.nxt with
          resetFlag := if s.sigRaised && s.cur.resetFlag then false else s.nxt.resetFlag
          rx := if s.sigRaised && s.cur.resetFlag then { s.nxt.rx with rxIdx := 0 } else s.nxt.rx } } := by
  unfold State.restartSampling; split <;> rfl

/-! ### The Receiver -/

theorem takeGroup_eq (s0 s1 s2 s3 : Bool) (s : State) :
    s.takeGroup s0 s1 s2 s3 =
      if s.rxRunning then
        { s with
          nxt := { s.nxt with rx := (s.cur.rx.takeAll ([s0, s1, s2, s3].drop s.cur.rx.rxIdx.toNat)).1 }
          events := s.events.merge (s.cur.rx.takeAll ([s0, s1, s2, s3].drop s.cur.rx.rxIdx.toNat)).2 }
      else s := rfl

/-! ### The Validator -/

theorem applyReaction_eq (r : Reaction) (s : State) :
    s.applyReaction r =
      { s with
        nxt := { s.nxt with val := r.val, resetFlag := if r.msg.isSome then true else s.nxt.resetFlag }
        events := s.events.merge r.events
        out := match r.msg with
          | none => s.out
          | some m => { s.out with msgValid := true, msgId := m.id, msgLen := m.len, msgData := m.data } } := by
  unfold State.applyReaction
  cases r.msg <;> rfl

/-- A parked or faulted Validator drops every bit (R140). -/
theorem react_of_waiting (t : CompleteTrigger) (v : Validator) (d : Bool) (h : (v.vParked || v.vFault) = true) :
    v.react t d = Reaction.quiet v := by
  simp [Validator.react, h]

/-- Only COMPLETE emits, and what it emits is the decoded pre-edge buffers (R149, R150). -/
theorem react_msg (t : CompleteTrigger) (v : Validator) (d : Bool) (m : Message) (h : (v.react t d).msg = some m) :
    v.react t d = v.completeFrame ∧ m = v.message := by
  unfold Validator.react at h ⊢
  split at h
  · simp [Reaction.quiet] at h
  · rename_i hw
    rw [if_neg hw]
    split at h <;> rename_i hp
    · unfold Validator.reactSync at h; split at h <;> simp [Reaction.quiet] at h
    · unfold Validator.reactStx at h
      split at h <;> [simp [Validator.indexFault] at h; (split at h <;> simp [Reaction.quiet] at h)]
    · unfold Validator.reactId at h; split at h <;> simp [Reaction.quiet, Validator.indexFault] at h
    · unfold Validator.reactLength at h; split at h <;> simp [Reaction.quiet, Validator.indexFault] at h
    · unfold Validator.reactPayload at h; split at h <;> simp [Reaction.quiet, Validator.indexFault] at h
    · unfold Validator.reactEnd at h ⊢
      split at h
      · simp [Validator.indexFault] at h
      · rename_i h6
        split at h
        · rename_i hd
          split at h
          · rename_i hc
            simp only [h6, hd, hc, if_true, if_false]
            simp [Validator.completeFrame] at h
            simp [h]
          · simp [Reaction.quiet] at h
        · simp at h
    · simp [Validator.completeFrame] at h
      simp [h]

end Sys2Proof.Machine
end

