-- ==== Sys2Proof/Laws/Cycle.lean ====
section
/-! SUPPORT. What one clock cycle does, said once: each register's value after a cycle as a function of the pre-edge
state (`cycleAfter`), and the theorem that `step` computes it (`step_eq`). Later proofs cite `step_eq` and the
`…After` functions and do not unfold `step`. -/

namespace Sys2Proof.Machine

/-! ### Each register after a cycle, from the pre-edge state -/

/-- `tdiv'` (R170). -/
def State.tdivAfter (s : State) : Nat := if s.tick then 0 else s.cur.tdiv + 1

/-- The Framer's registers after a cycle (R91 to R98). -/
def State.framerAfter (s : State) (f : Framer) : Framer :=
  if s.sigRaised then { f with fLen := 0, fState := .accum }
  else if s.accepts then
    if isTerminator s.inp.charData then
      if s.cur.framer.fLen.toNat ≤ 7 then { f with fIdx := 0, fState := .push }
      else if s.cur.framer.fLen = 8 then { f with fLen := 0 }
      else f
    else if s.cur.framer.fLen.toNat ≤ 6 then
      { f with fBuf := f.fBuf.setIfInBounds s.cur.framer.fLen.toNat s.inp.charData, fLen := s.cur.framer.fLen + 1 }
    else { f with fLen := 8 }
  else if s.pushes then
    if s.cur.framer.atEnd then { f with fState := .signal } else { f with fIdx := s.cur.framer.fIdx + 1 }
  else f

/-- The octet pushed in this cycle (R96). -/
def State.pushNow (s : State) : Option Octet := if s.pushes then s.cur.framer.frameByte else none

/-- Whether an octet is popped in this cycle (R111, R114). -/
def State.popNow (s : State) : Bool :=
  s.tick && !s.queueEmpty
    && (!s.cur.tx.txBusy || (s.cur.tx.txHold == 3 && s.cur.tx.txIdx == 0))

/-- The queue after a cycle (R43 to R45). -/
def State.queueAfter (s : State) : List Octet :=
  (if s.popNow then s.cur.q.tail else s.cur.q) ++ s.pushNow.toList

/-- The Transmitter's registers after a cycle (R111 to R116). -/
def State.txAfter (s : State) (t : Transmitter) : Transmitter :=
  if s.tick then
    if s.cur.tx.txBusy && decide (s.cur.tx.txHold.toNat < 3) then { t with txHold := s.cur.tx.txHold + 1 }
    else if s.cur.tx.txBusy && decide (0 < s.cur.tx.txIdx.toNat) then
      { t with
        txIdx := s.cur.tx.txIdx - 1
        lineOut := s.cur.tx.txByte.getLsbD (s.cur.tx.txIdx.toNat - 1)
        txHold := 0 }
    else
      match s.cur.q with
      | [] => { t with txBusy := if s.cur.tx.txBusy then false else t.txBusy }
      | b :: _ => { t with txByte := b, txIdx := 7, txHold := 0, lineOut := b.getLsbD 7, txBusy := true }
  else t

/-- The Receiver after the signals (R172, R174). -/
def State.rxPulsed (s : State) (r : Receiver) : Receiver :=
  if s.sigRaised && !s.cur.rx.rxStarted then { r with rxStarted := true, rxIdx := 0 }
  else if s.sigRaised && s.cur.resetFlag then { r with rxIdx := 0 }
  else r

/-- The Receiver's registers after a cycle (R126 to R131). -/
def State.rxAfter (s : State) : Receiver :=
  if s.rxSamples then s.cur.rx.take s.sample else s.rxPulsed s.cur.rx

/-- The Validator's reaction in this cycle, if a bit is decided (R140, R141). -/
def State.reactionNow (s : State) : Reaction :=
  match s.decided with
  | none => Reaction.quiet s.cur.val
  | some d => s.cur.val.react s.params.completeTrigger d

/-- The Validator after the signals (R173). -/
def State.valPulsed (s : State) (v : Validator) : Validator :=
  if s.sigRaised && s.cur.val.vParked then { v with vParked := false } else v

/-- The Validator's registers after a cycle (R142 to R149, R173). -/
def State.valAfter (s : State) : Validator := s.valPulsed s.reactionNow.val

/-- `reset_flag'` (R149, R174). -/
def State.resetFlagAfter (s : State) : Bool :=
  if s.reactionNow.msg.isSome then true
  else if s.sigRaised && s.cur.resetFlag then false
  else s.cur.resetFlag

/-- The registers after a cycle with `rst` = 0. -/
def State.regsAfter (s : State) : Regs :=
  { tdiv := s.tdivAfter
    framer := s.framerAfter s.cur.framer
    q := s.queueAfter
    tx := s.txAfter s.cur.tx
    rx := s.rxAfter
    val := s.valAfter
    resetFlag := s.resetFlagAfter }

/-- The output ports in a cycle with `rst` = 0 (R23). -/
def State.outNow (s : State) : Outputs :=
  { lineOut := s.cur.tx.lineOut
    charReady := s.charReady
    msgValid := s.reactionNow.msg.isSome
    msgId := (s.reactionNow.msg.map Message.id).getD 0
    msgLen := (s.reactionNow.msg.map Message.len).getD 0
    msgData := (s.reactionNow.msg.map Message.data).getD 0
    errOversize := firesFTermOversize s
    vFault := s.cur.val.vFault }

/-- The events of a cycle with `rst` = 0 (R190). -/
def State.eventsNow (s : State) : Events :=
  { s.reactionNow.events with
    oversizeLine := firesFTermOversize s
    ambiguousSample := s.groupEnds && s.cur.rx.rxS1 != s.cur.rx.rxS2 }

/-- The state after a cycle with `rst` = 0. -/
def State.cycleAfter (s : State) : State :=
  { params := s.params
    cur := s.regsAfter
    nxt := s.regsAfter
    push := none
    pop := false
    out := s.outNow
    events := s.eventsNow
    script := s.script.tail
    cycle := s.cycle + 1 }

/-! ### Running part by part -/

/-- The state in mid-cycle: the pre-edge view of `b`, with what has been written so far. -/
def State.mid (b : State) (n : Regs) (p : Option Octet) (o : Bool) (u : Outputs) (e : Events) : State :=
  { b with nxt := n, push := p, pop := o, out := u, events := e }

theorem runOps_append (a b : List Instr) (s : State) :
    runOps (a ++ b) s =
      match runOps a s with
      | .next t => runOps b t
      | .fault r => .fault r
      | .refused r => .refused r := by
  induction a generalizing s with
  | nil => rfl
  | cons i is ih =>
    simp only [List.cons_append, runOps]
    cases exec i s <;> simp [ih]

@[simp] theorem events_merge_none (e : Events) : e.merge Events.none = e := by
  cases e; simp [Events.merge, Events.none]

@[simp] theorem events_none_merge (e : Events) : Events.none.merge e = e := by
  cases e; simp [Events.merge, Events.none]

@[simp] theorem events_merge_self (e x : Events) : (e.merge x).merge x = e.merge x := by
  cases e; cases x; simp [Events.merge]

section
variable (b : State) (n : Regs) (p : Option Octet) (o : Bool) (u : Outputs) (e : Events)

theorem mid_pulseSignals :
    (b.mid n p o u e).pulseSignals =
      b.mid { n with
        rx := b.rxPulsed n.rx
        val := b.valPulsed n.val
        resetFlag := if b.sigRaised && b.cur.resetFlag then false else n.resetFlag } p o u e := by
  have h : ∀ m, (State.mk b.params b.cur m p o u e b.script b.cycle).sigRaised = b.sigRaised := fun _ => rfl
  simp only [State.pulseSignals, beginSampling_eq, abandonWait_eq, restartSampling_eq, State.rxPulsed,
    State.valPulsed, State.mid, h]
  cases b.sigRaised <;> cases b.cur.rx.rxStarted <;> cases b.cur.resetFlag <;> simp

theorem rxPulsed_idem (r : Receiver) : b.rxPulsed (b.rxPulsed r) = b.rxPulsed r := by
  unfold State.rxPulsed; split
  · rfl
  · split <;> rfl

theorem valPulsed_idem (v : Validator) : b.valPulsed (b.valPulsed v) = b.valPulsed v := by
  unfold State.valPulsed; split <;> rfl

/-! The parts in the order in which a cycle lists them. -/

theorem run_tick : exec .tick (b.mid n p o u e) = .next (b.mid { n with tdiv := b.tdivAfter } p o u e) := rfl

theorem runOps_single (i : Instr) (s t : State) (h : exec i s = .next t) : runOps [i] s = .next t := by
  simp [runOps, h]

/-- The Framer's part of a cycle that does not fault. -/
theorem run_framerOps (h : b.pushes = true → b.cur.framer.frameByte.isSome = true) :
    runOps (framerOps b) (b.mid n p o u e) =
      .next (b.mid
        { n with
          framer := b.framerAfter n.framer
          q := if b.pushes then (if o then b.cur.q.tail else b.cur.q) ++ b.pushNow.toList else n.q
          rx := b.rxPulsed n.rx
          val := b.valPulsed n.val
          resetFlag := if b.sigRaised && b.cur.resetFlag then false else n.resetFlag }
        (if b.pushes then b.pushNow else p) o
        { u with errOversize := firesFTermOversize b || u.errOversize }
        (e.merge { Events.none with oversizeLine := firesFTermOversize b })) := by
  have hx1 : exec .fChar (b.mid n p o u e) =
      if firesFChar b then .next ((b.mid n p o u e).storeChar b.inp.charData) else .next (b.mid n p o u e) := rfl
  have hx2 : exec .fCharOver (b.mid n p o u e) =
      if firesFCharOver b then .next (b.mid n p o u e).dropChar else .next (b.mid n p o u e) := rfl
  have hx3 : exec .fTermOk (b.mid n p o u e) =
      if firesFTermOk b then .next (b.mid n p o u e).startPush else .next (b.mid n p o u e) := rfl
  have hx4 : exec .fTermOversize (b.mid n p o u e) =
      if firesFTermOversize b then .next (b.mid n p o u e).rejectLine else .next (b.mid n p o u e) := rfl
  have hx5 : exec .fPush (b.mid n p o u e) =
      if firesFPush b then
        match b.cur.framer.frameByte with
        | some v => .next ((b.mid n p o u e).emitOctet v)
        | none => .fault .frameIndex
      else .next (b.mid n p o u e) := rfl
  have hx6 : exec .fStall (b.mid n p o u e) = .next (b.mid n p o u e) := rfl
  have hx7 : exec .fSignal (b.mid n p o u e) =
      if firesFSignal b then
        .next ((b.mid n p o u e).pulseSignals.updFramer fun f => { f with fLen := 0, fState := .accum })
      else .next (b.mid n p o u e) := rfl
  rw [mid_pulseSignals] at hx7
  have none_events : ({ Events.none with oversizeLine := false } : Events) = Events.none := rfl
  rcases hst : b.cur.framer.fState with _ | _ | _
  · -- ACCUM
    have hsig : b.sigRaised = false := by simp [State.sigRaised, hst]
    have hpu : b.pushes = false := by simp [State.pushes, hst]
    have hrx : b.rxPulsed n.rx = n.rx := by simp [State.rxPulsed, hsig]
    have hva : b.valPulsed n.val = n.val := by simp [State.valPulsed, hsig]
    have f5 : firesFPush b = false := hpu
    have f6 : firesFStall b = false := by simp [firesFStall, hst]
    have f7 : firesFSignal b = false := hsig
    cases hacc : b.accepts
    · simp [framerOps, firesFChar, firesFCharOver, firesFTermOk, firesFTermOversize, hacc, f5, f6, f7, runOps,
        State.framerAfter, hsig, hpu, hrx, hva, none_events]
    · cases ht : isTerminator b.inp.charData
      · by_cases h6 : b.cur.framer.fLen.toNat ≤ 6
        · have h7 : ¬ 7 ≤ b.cur.framer.fLen.toNat := by omega
          have f1 : firesFChar b = true := by simp [firesFChar, hacc, ht, h6]
          have f2 : firesFCharOver b = false := by simp [firesFCharOver, h7]
          have f3 : firesFTermOk b = false := by simp [firesFTermOk, ht]
          have f4 : firesFTermOversize b = false := by simp [firesFTermOversize, ht]
          have hl : framerOps b = [.fChar] := by simp [framerOps, f1, f2, f3, f4, f5, f6, f7]
          rw [hl]
          refine runOps_single _ _ _ ?_
          rw [hx1, if_pos f1]
          simp [State.framerAfter, hsig, hpu, hrx, hva, hacc, ht, h6, f4, none_events, storeChar_eq, State.mid]
        · have h7 : 7 ≤ b.cur.framer.fLen.toNat := by omega
          have f1 : firesFChar b = false := by simp [firesFChar, h6]
          have f2 : firesFCharOver b = true := by simp [firesFCharOver, hacc, ht, h7]
          have f3 : firesFTermOk b = false := by simp [firesFTermOk, ht]
          have f4 : firesFTermOversize b = false := by simp [firesFTermOversize, ht]
          have hl : framerOps b = [.fCharOver] := by simp [framerOps, f1, f2, f3, f4, f5, f6, f7]
          rw [hl]
          refine runOps_single _ _ _ ?_
          rw [hx2, if_pos f2]
          simp [State.framerAfter, hsig, hpu, hrx, hva, hacc, ht, h6, f4, none_events, dropChar_eq, State.mid]
      · have f1 : firesFChar b = false := by simp [firesFChar, ht]
        have f2 : firesFCharOver b = false := by simp [firesFCharOver, ht]
        by_cases h7 : b.cur.framer.fLen.toNat ≤ 7
        · have h8 : ¬ b.cur.framer.fLen = 8#4 := by intro h8; rw [h8] at h7; simp at h7
          have f3 : firesFTermOk b = true := by simp [firesFTermOk, hacc, ht, h7]
          have f4 : firesFTermOversize b = false := by simp [firesFTermOversize, h8]
          have hl : framerOps b = [.fTermOk] := by simp [framerOps, f1, f2, f3, f4, f5, f6, f7]
          rw [hl]
          refine runOps_single _ _ _ ?_
          rw [hx3, if_pos f3]
          simp [State.framerAfter, hsig, hpu, hrx, hva, hacc, ht, h7, f4, none_events, startPush_eq, State.mid]
        · have f3 : firesFTermOk b = false := by simp [firesFTermOk, h7]
          by_cases h8 : b.cur.framer.fLen = 8#4
          · have f4 : firesFTermOversize b = true := by simp [firesFTermOversize, hacc, ht, h8]
            have hl : framerOps b = [.fTermOversize] := by simp [framerOps, f1, f2, f3, f4, f5, f6, f7]
            rw [hl]
            refine runOps_single _ _ _ ?_
            rw [hx4, if_pos f4]
            simp [State.framerAfter, hsig, hpu, hrx, hva, hacc, ht, h8, f4, rejectLine_eq, State.mid]
          · have f4 : firesFTermOversize b = false := by simp [firesFTermOversize, h8]
            simp [framerOps, f1, f2, f3, f4, f5, f6, f7, runOps, State.framerAfter, hsig, hpu, hrx, hva, hacc, ht,
              h7, h8, none_events]
  · -- PUSH
    have hsig : b.sigRaised = false := by simp [State.sigRaised, hst]
    have hacc : b.accepts = false := by simp [State.accepts, State.charReady, hst]
    have hrx : b.rxPulsed n.rx = n.rx := by simp [State.rxPulsed, hsig]
    have hva : b.valPulsed n.val = n.val := by simp [State.valPulsed, hsig]
    have f1 : firesFChar b = false := by simp [firesFChar, hacc]
    have f2 : firesFCharOver b = false := by simp [firesFCharOver, hacc]
    have f3 : firesFTermOk b = false := by simp [firesFTermOk, hacc]
    have f4 : firesFTermOversize b = false := by simp [firesFTermOversize, hacc]
    have f7 : firesFSignal b = false := hsig
    cases hfull : b.queueFull
    · have hpu : b.pushes = true := by simp [State.pushes, hst, hfull]
      have f5 : firesFPush b = true := hpu
      have f6 : firesFStall b = false := by simp [firesFStall, hfull]
      obtain ⟨v, hv⟩ := Option.isSome_iff_exists.mp (h hpu)
      rw [hv] at hx5
      have hl : framerOps b = [.fPush] := by simp [framerOps, f1, f2, f3, f4, f5, f6, f7]
      rw [hl]
      refine runOps_single _ _ _ ?_
      rw [hx5, if_pos f5]
      simp [State.framerAfter, hsig, hpu, hrx, hva, hacc, f4, none_events, emitOctet_eq, State.mid, State.pushNow, hv]
    · have hpu : b.pushes = false := by simp [State.pushes, hst, hfull]
      have f5 : firesFPush b = false := hpu
      have f6 : firesFStall b = true := by simp [firesFStall, hst, hfull]
      simp [framerOps, f1, f2, f3, f4, f5, f6, f7, runOps, hx6, State.framerAfter, hsig, hpu, hrx, hva, hacc,
        none_events]
  · -- SIGNAL
    have hacc : b.accepts = false := by simp [State.accepts, State.charReady, hst]
    have hpu : b.pushes = false := by simp [State.pushes, hst]
    have f1 : firesFChar b = false := by simp [firesFChar, hacc]
    have f2 : firesFCharOver b = false := by simp [firesFCharOver, hacc]
    have f3 : firesFTermOk b = false := by simp [firesFTermOk, hacc]
    have f4 : firesFTermOversize b = false := by simp [firesFTermOversize, hacc]
    have f5 : firesFPush b = false := hpu
    have f6 : firesFStall b = false := by simp [firesFStall, hst]
    cases hsig : b.sigRaised
    · have f7 : firesFSignal b = false := hsig
      have hrx : b.rxPulsed n.rx = n.rx := by simp [State.rxPulsed, hsig]
      have hva : b.valPulsed n.val = n.val := by simp [State.valPulsed, hsig]
      simp [framerOps, f1, f2, f3, f4, f5, f6, f7, runOps, State.framerAfter, hsig, hpu, hrx, hva, hacc, none_events]
    · have f7 : firesFSignal b = true := hsig
      have hl : framerOps b = [.fSignal] := by simp [framerOps, f1, f2, f3, f4, f5, f6, f7]
      rw [hl]
      refine runOps_single _ _ _ ?_
      rw [hx7, if_pos f7]
      simp [State.framerAfter, hsig, hpu, f4, none_events, State.updFramer, State.mid]

/-- The Transmitter's part. -/
theorem run_txOps :
    runOps (txOps b) (b.mid n p o u e) =
      .next (b.mid
        { n with
          tx := b.txAfter n.tx
          q := if b.popNow then b.cur.q.tail ++ p.toList else n.q }
        p (o || b.popNow) u e) := by
  have hx1 : exec .txLoad (b.mid n p o u e) =
      if firesTxLoad b then .next (b.mid n p o u e).loadOctet else .next (b.mid n p o u e) := rfl
  have hx2 : exec .txHold (b.mid n p o u e) =
      if firesTxHold b then
        .next ((b.mid n p o u e).updTx fun t => { t with txHold := b.cur.tx.txHold + 1 })
      else .next (b.mid n p o u e) := rfl
  have hx3 : exec .txShift (b.mid n p o u e) =
      if firesTxShift b then
        .next ((b.mid n p o u e).updTx fun t =>
          { t with
            txIdx := b.cur.tx.txIdx - 1
            lineOut := b.cur.tx.txByte.getLsbD (b.cur.tx.txIdx.toNat - 1)
            txHold := 0 })
      else .next (b.mid n p o u e) := rfl
  have hx4 : exec .txNext (b.mid n p o u e) =
      if firesTxNext b then .next (b.mid n p o u e).loadOctet else .next (b.mid n p o u e) := rfl
  have hx5 : exec .txIdle (b.mid n p o u e) =
      if firesTxIdle b then .next ((b.mid n p o u e).setTxBusy false) else .next (b.mid n p o u e) := rfl
  have hx6 : exec .txWait (b.mid n p o u e) = .next (b.mid n p o u e) := rfl
  have hload : ∀ x xs, b.cur.q = x :: xs → (b.mid n p o u e).loadOctet =
      b.mid { n with
        q := xs ++ p.toList
        tx := { n.tx with txByte := x, txIdx := 7, txHold := 0, lineOut := x.getLsbD 7, txBusy := true } }
        p true u e := fun x xs h => loadOctet_cons (b.mid n p o u e) x xs h
  cases ht : b.tick
  · have hl : txOps b = [] := by
      simp [txOps, firesTxLoad, firesTxHold, firesTxShift, firesTxNext, firesTxIdle, firesTxWait, State.txOctetEnds, ht]
    have hp : b.popNow = false := by simp [State.popNow, ht]
    rw [hl]
    simp [runOps, State.txAfter, ht, hp]
  · cases hb : b.cur.tx.txBusy
    · cases hq : b.cur.q with
      | nil =>
        have hl : txOps b = [.txWait] := by
          simp [txOps, firesTxLoad, firesTxHold, firesTxShift, firesTxNext, firesTxIdle, firesTxWait,
            State.txOctetEnds, State.queueEmpty, ht, hb, hq]
        have hp : b.popNow = false := by simp [State.popNow, State.queueEmpty, hq]
        rw [hl]
        refine runOps_single _ _ _ ?_
        rw [hx6]
        simp [State.txAfter, ht, hb, hq, hp]
      | cons x xs =>
        have hl : txOps b = [.txLoad] := by
          simp [txOps, firesTxLoad, firesTxHold, firesTxShift, firesTxNext, firesTxIdle, firesTxWait,
            State.txOctetEnds, State.queueEmpty, ht, hb, hq]
        have hp : b.popNow = true := by simp [State.popNow, State.queueEmpty, ht, hb, hq]
        have hf : firesTxLoad b = true := by simp [firesTxLoad, State.queueEmpty, ht, hb, hq]
        rw [hl]
        refine runOps_single _ _ _ ?_
        rw [hx1, if_pos hf, hload x xs hq]
        simp [State.txAfter, ht, hb, hq, hp]
    · by_cases hh : b.cur.tx.txHold.toNat < 3
      · have h3 : ¬ b.cur.tx.txHold = 3#2 := by intro h3; simp [h3] at hh
        have hf : firesTxHold b = true := by simp [firesTxHold, ht, hb, hh]
        have hl : txOps b = [.txHold] := by
          simp [txOps, firesTxLoad, firesTxShift, firesTxNext, firesTxIdle, firesTxWait, State.txOctetEnds, hf, ht, hb,
            h3]
        have hp : b.popNow = false := by simp [State.popNow, hb, h3]
        rw [hl]
        refine runOps_single _ _ _ ?_
        rw [hx2, if_pos hf]
        simp [State.txAfter, ht, hb, hh, hp, State.updTx, State.mid]
      · have h3 : b.cur.tx.txHold = 3#2 := by
          apply BitVec.eq_of_toNat_eq
          have := b.cur.tx.txHold.isLt
          simp
          omega
        have hf2 : firesTxHold b = false := by simp [firesTxHold, hh]
        by_cases hi : 0 < b.cur.tx.txIdx.toNat
        · have hi0 : ¬ b.cur.tx.txIdx = 0#3 := by intro h; simp [h] at hi
          have hf : firesTxShift b = true := by simp [firesTxShift, ht, hb, h3, hi]
          have hl : txOps b = [.txShift] := by
            simp [txOps, firesTxLoad, firesTxNext, firesTxIdle, firesTxWait, State.txOctetEnds, hf, hf2, hb, hi0]
          have hp : b.popNow = false := by simp [State.popNow, hb, hi0]
          rw [hl]
          refine runOps_single _ _ _ ?_
          rw [hx3, if_pos hf]
          simp [State.txAfter, ht, hb, hh, hi, hp, State.updTx, State.mid]
        · have hi0 : b.cur.tx.txIdx = 0#3 := by
            apply BitVec.eq_of_toNat_eq
            simp
            omega
          have hf3 : firesTxShift b = false := by simp [firesTxShift, hi]
          have hend : b.txOctetEnds = true := by simp [State.txOctetEnds, ht, hb, h3, hi0]
          cases hq : b.cur.q with
          | nil =>
            have hf : firesTxIdle b = true := by simp [firesTxIdle, hend, State.queueEmpty, hq]
            have hl : txOps b = [.txIdle] := by
              simp [txOps, firesTxLoad, firesTxNext, firesTxWait, hf, hf2, hf3, hb, State.queueEmpty, hq]
            have hp : b.popNow = false := by simp [State.popNow, State.queueEmpty, hq]
            rw [hl]
            refine runOps_single _ _ _ ?_
            rw [hx5, if_pos hf]
            simp [State.txAfter, ht, hb, hh, hi, hq, hp, State.setTxBusy, State.mid]
          | cons x xs =>
            have hf : firesTxNext b = true := by simp [firesTxNext, hend, State.queueEmpty, hq]
            have hl : txOps b = [.txNext] := by
              simp [txOps, firesTxLoad, firesTxIdle, firesTxWait, hf, hf2, hf3, hb, State.queueEmpty, hq]
            have hp : b.popNow = true := by simp [State.popNow, State.queueEmpty, ht, hb, h3, hi0, hq]
            rw [hl]
            refine runOps_single _ _ _ ?_
            rw [hx4, if_pos hf, hload x xs hq]
            simp [State.txAfter, ht, hb, hh, hi, hq, hp]

/-- The Receiver's registers as its own operations and the signals write them. -/
def State.rxWritten (s : State) (r : Receiver) : Receiver :=
  if s.rxSamples then
    let r := r.store s.cur.rx.rxIdx s.sample
    if s.groupEnds && s.cur.rx.rxS1 == s.cur.rx.rxS2 then { r with dbit := s.cur.rx.rxS1 } else r
  else s.rxPulsed r

/-- The Receiver's part. -/
theorem run_rxOps :
    runOps (rxOps b) (b.mid n p o u e) =
      .next (b.mid
        { n with
          rx := b.rxWritten n.rx
          resetFlag := if b.sigRaised && b.cur.resetFlag then false else n.resetFlag }
        p o u
        (e.merge { Events.none with ambiguousSample := b.groupEnds && b.cur.rx.rxS1 != b.cur.rx.rxS2 })) := by
  have hx1 : ∀ n e, exec .rxBegin (b.mid n p o u e) = .next (b.mid n p o u e).beginSampling := fun _ _ => rfl
  have hx2 : ∀ n e, exec .rxPause (b.mid n p o u e) = .next (b.mid n p o u e) := fun _ _ => rfl
  have hx3 : ∀ n e, exec .rxRestart (b.mid n p o u e) = .next (b.mid n p o u e).restartSampling := fun _ _ => rfl
  have hx4 : ∀ n e, exec .rxSample (b.mid n p o u e) =
      if firesRxSample b then .next ((b.mid n p o u e).updRx fun r => r.store b.cur.rx.rxIdx b.sample)
      else .next (b.mid n p o u e) := fun _ _ => rfl
  have hx5 : ∀ n e, exec .rxDecideAgree (b.mid n p o u e) =
      if firesRxDecideAgree b then .next ((b.mid n p o u e).publish b.cur.rx.rxS1)
      else .next (b.mid n p o u e) := fun _ _ => rfl
  have hx6 : ∀ n e, exec .rxDecideDrop (b.mid n p o u e) =
      if firesRxDecideDrop b then
        .next ((b.mid n p o u e).raise { Events.none with ambiguousSample := true })
      else .next (b.mid n p o u e) := fun _ _ => rfl
  have none_events : ({ Events.none with ambiguousSample := false } : Events) = Events.none := rfl
  have hbegin : ∀ n e, (b.mid n p o u e).beginSampling =
      b.mid { n with rx :=
        if b.sigRaised && !b.cur.rx.rxStarted then { n.rx with rxStarted := true, rxIdx := 0 } else n.rx } p o u e :=
    fun n e => beginSampling_eq (b.mid n p o u e)
  have hrestart : ∀ n e, (b.mid n p o u e).restartSampling =
      b.mid { n with
        resetFlag := if b.sigRaised && b.cur.resetFlag then false else n.resetFlag
        rx := if b.sigRaised && b.cur.resetFlag then { n.rx with rxIdx := 0 } else n.rx } p o u e :=
    fun n e => restartSampling_eq (b.mid n p o u e)
  cases hrun : b.rxSamples
  · -- no sample: only the signals act
    have hge : b.groupEnds = false := by simp [State.groupEnds, hrun]
    have f4 : firesRxSample b = false := hrun
    have f5 : firesRxDecideAgree b = false := by simp [firesRxDecideAgree, hge]
    have f6 : firesRxDecideDrop b = false := by simp [firesRxDecideDrop, hge]
    cases h1 : firesRxBegin b <;> cases h2 : firesRxPause b <;> cases h3 : firesRxRestart b <;>
      simp [rxOps, h1, h2, h3, f4, f5, f6, runOps, hx1, hx2, hx3, hbegin, hrestart, State.rxWritten, hrun,
        State.rxPulsed, hge, none_events] <;>
      simp [firesRxBegin] at h1 <;> simp [firesRxRestart] at h3 <;>
      cases hs : b.sigRaised <;> simp_all
  · have hr : b.rxRunning = true := by
      simp only [State.rxSamples, Bool.and_eq_true] at hrun; exact hrun.2
    have hst : b.cur.rx.rxStarted = true := by
      simp only [State.rxRunning, Bool.and_eq_true] at hr; exact hr.1
    have hrf : b.cur.resetFlag = false := by
      simp only [State.rxRunning, Bool.and_eq_true, Bool.not_eq_true'] at hr; exact hr.2
    have f1 : firesRxBegin b = false := by simp [firesRxBegin, hst]
    have f2 : firesRxPause b = false := by simp [firesRxPause, hrf]
    have f3 : firesRxRestart b = false := by simp [firesRxRestart, hrf]
    have f4 : firesRxSample b = true := hrun
    have upd : ∀ n e f, (b.mid n p o u e).updRx f = b.mid { n with rx := f n.rx } p o u e := fun _ _ _ => rfl
    have upd' : ∀ n e d, (b.mid n p o u e).publish d = b.mid { n with rx := { n.rx with dbit := d } } p o u e :=
      fun _ _ _ => rfl
    have upd'' : ∀ n e x, (b.mid n p o u e).raise x = b.mid n p o u (e.merge x) := fun _ _ _ => rfl
    cases hge : b.groupEnds
    · have f5 : firesRxDecideAgree b = false := by simp [firesRxDecideAgree, hge]
      have f6 : firesRxDecideDrop b = false := by simp [firesRxDecideDrop, hge]
      simp [rxOps, f1, f2, f3, f4, f5, f6, runOps, hx4, upd, State.rxWritten, hrun, hge, hrf, none_events]
    · by_cases hs : b.cur.rx.rxS1 = b.cur.rx.rxS2
      · have f5 : firesRxDecideAgree b = true := by simp [firesRxDecideAgree, hge, hs]
        have f6 : firesRxDecideDrop b = false := by simp [firesRxDecideDrop, hs]
        simp [rxOps, f1, f2, f3, f4, f5, f6, runOps, hx4, hx5, upd, upd', State.rxWritten, hrun, hge, hs, hrf,
          none_events]
      · have f5 : firesRxDecideAgree b = false := by simp [firesRxDecideAgree, hs]
        have f6 : firesRxDecideDrop b = true := by simp [firesRxDecideDrop, hge, hs]
        have hne : (b.cur.rx.rxS1 != b.cur.rx.rxS2) = true := by simpa using hs
        simp [rxOps, f1, f2, f3, f4, f5, f6, runOps, hx4, hx6, upd, upd'', State.rxWritten, hrun, hge, hs, hne, hrf]

/-- The ports with a reaction's message. -/
def Outputs.emit (u : Outputs) (r : Reaction) : Outputs :=
  match r.msg with
  | none => u
  | some m => { u with msgValid := true, msgId := m.id, msgLen := m.len, msgData := m.data }

theorem emit_idem (r : Reaction) : (u.emit r).emit r = u.emit r := by
  unfold Outputs.emit; cases r.msg <;> rfl

theorem mid_applyReaction (r : Reaction) :
    (b.mid n p o u e).applyReaction r =
      b.mid { n with val := r.val, resetFlag := if r.msg.isSome then true else n.resetFlag } p o (u.emit r)
        (e.merge r.events) := applyReaction_eq r (b.mid n p o u e)

/-- A reaction applied twice is applied once. -/
theorem applyReaction_idem (r : Reaction) :
    ((b.mid n p o u e).applyReaction r).applyReaction r = (b.mid n p o u e).applyReaction r := by
  simp only [mid_applyReaction, emit_idem, events_merge_self]
  cases r.msg <;> simp

theorem reactIn_mid (ph : Phase) (f : Validator → Bool → Reaction) :
    (b.mid n p o u e).reactIn ph f =
      match b.decided with
      | none => b.mid n p o u e
      | some d => if b.cur.val.phase = ph then (b.mid n p o u e).applyReaction (f b.cur.val d)
        else b.mid n p o u e := rfl

theorem not_waiting_of_decided {d : Bool} (h : b.decided = some d) :
    b.cur.val.vParked = false ∧ b.cur.val.vFault = false := by
  unfold State.decided at h
  split at h
  · simp at h
  · rename_i hw; simpa using hw

/-- The Validator's part: nothing without a decided bit, else the reaction to it. -/
theorem run_valOps :
    runOps (valOps b) (b.mid n p o u e) =
      .next (if b.decided.isSome then (b.mid n p o u e).applyReaction b.reactionNow else b.mid n p o u e) := by
  cases hd : b.decided with
  | none =>
    have hf : ∀ ph, firesV ph b = false := by intro ph; simp [firesV, hd]
    have hc : b.endCompletes = false := by simp [State.endCompletes, hd]
    simp [valOps, hf, firesVComplete, hc, runOps]
  | some d =>
    obtain ⟨hp, hv⟩ := not_waiting_of_decided b hd
    have hw : ¬ (b.cur.val.vParked || b.cur.val.vFault) = true := by simp [hp, hv]
    have hf : ∀ ph, firesV ph b = (b.cur.val.phase == ph) := by intro ph; simp [firesV, hd]
    have hn : b.reactionNow = b.cur.val.react b.params.completeTrigger d := by simp [State.reactionNow, hd]
    have hc : b.cur.val.phase ≠ .endMarker → b.endCompletes = false := by
      intro h; simp [State.endCompletes, hd, h]
    have hx1 : exec .vSync (b.mid n p o u e) = .next ((b.mid n p o u e).reactIn .sync Validator.reactSync) := rfl
    have hx2 : exec .vStx (b.mid n p o u e) = .next ((b.mid n p o u e).reactIn .stx Validator.reactStx) := rfl
    have hx3 : exec .vId (b.mid n p o u e) = .next ((b.mid n p o u e).reactIn .id Validator.reactId) := rfl
    have hx4 : exec .vLength (b.mid n p o u e) = .next ((b.mid n p o u e).reactIn .length Validator.reactLength) := rfl
    have hx5 : exec .vPayload (b.mid n p o u e) = .next ((b.mid n p o u e).reactIn .payload Validator.reactPayload) :=
      rfl
    have hx6 : exec .vEnd (b.mid n p o u e) =
      .next ((b.mid n p o u e).reactIn .endMarker (Validator.reactEnd b.params.completeTrigger)) := rfl
    have hx7 : ∀ n u e, exec .vComplete (b.mid n p o u e) =
      if firesVComplete b then .next ((b.mid n p o u e).applyReaction b.cur.val.completeFrame)
      else .next (b.mid n p o u e) := fun _ _ _ => rfl
    have hr : b.cur.val.react b.params.completeTrigger d =
        match b.cur.val.phase with
        | .sync => b.cur.val.reactSync d
        | .stx => b.cur.val.reactStx d
        | .id => b.cur.val.reactId d
        | .length => b.cur.val.reactLength d
        | .payload => b.cur.val.reactPayload d
        | .endMarker => b.cur.val.reactEnd b.params.completeTrigger d
        | .complete => b.cur.val.completeFrame := by
      unfold Validator.react
      rw [if_neg hw]
      all_goals (cases b.cur.val.phase <;> rfl)
    rcases hph : b.cur.val.phase with _ | _ | _ | _ | _ | _ | _ <;>
      simp only [valOps, hf, hph, firesVComplete, hn, hr]
    · simp [runOps, hx1, reactIn_mid, hd, hph, hc]
    · simp [runOps, hx2, reactIn_mid, hd, hph, hc]
    · simp [runOps, hx3, reactIn_mid, hd, hph, hc]
    · simp [runOps, hx4, reactIn_mid, hd, hph, hc]
    · simp [runOps, hx5, reactIn_mid, hd, hph, hc]
    · cases he : b.endCompletes
      · simp [runOps, hx6, reactIn_mid, hd, hph]
      · have hre : b.cur.val.reactEnd b.params.completeTrigger d = b.cur.val.completeFrame := by
          have he' := he
          simp only [State.endCompletes, hd, hph, Bool.and_eq_true, decide_eq_true_eq, beq_iff_eq] at he'
          obtain ⟨⟨⟨_, h6⟩, hdd⟩, hca⟩ := he'
          unfold Validator.reactEnd
          rw [if_neg (by omega), if_pos hdd, if_pos hca]
        have hfc : firesVComplete b = true := by simp [firesVComplete, he]
        have hx6' : exec .vEnd (b.mid n p o u e) = .next ((b.mid n p o u e).applyReaction b.cur.val.completeFrame) := by
          simp only [hx6, reactIn_mid, hd, hph, hre, if_true]
        have hidem := applyReaction_idem b n p o u e b.cur.val.completeFrame
        rw [mid_applyReaction] at hx6' hidem
        have h2 : ∀ x y : Instr, runOps ([] ++ [] ++ [] ++ [] ++ [] ++ [x] ++ [y]) (b.mid n p o u e) =
            runOps [x, y] (b.mid n p o u e) := fun _ _ => rfl
        simp only [Bool.or_true, if_true, beq_self_eq_true, Option.isSome_some, hre]
        rw [show (Phase.endMarker == Phase.sync) = false from rfl, show (Phase.endMarker == Phase.stx) = false from rfl,
          show (Phase.endMarker == Phase.id) = false from rfl, show (Phase.endMarker == Phase.length) = false from rfl,
          show (Phase.endMarker == Phase.payload) = false from rfl]
        simp only [Bool.false_eq_true, if_false]
        rw [h2, runOps, hx6']
        simp only [runOps, hx7, hfc, if_true, hidem, mid_applyReaction]
    · have hfc : firesVComplete b = true := by simp [firesVComplete, hf, hph]
      simp [runOps, hx7, hfc]

/-- The signals' part. -/
theorem run_sigOps :
    runOps (sigOps b) (b.mid n p o u e) =
      .next (b.mid
        { n with
          rx := b.rxPulsed n.rx
          val := b.valPulsed n.val
          resetFlag := if b.sigRaised && b.cur.resetFlag then false else n.resetFlag } p o u e) := by
  cases hs : b.sigRaised
  · simp [sigOps, hs, runOps, State.rxPulsed, State.valPulsed]
  · have hx1 : ∀ n, exec .sig (b.mid n p o u e) = .next (b.mid n p o u e).pulseSignals := fun _ => rfl
    have hx2 : ∀ n, exec .sigBegin (b.mid n p o u e) = .next (b.mid { n with rx :=
        if b.sigRaised && !b.cur.rx.rxStarted then { n.rx with rxStarted := true, rxIdx := 0 } else n.rx } p o u e) :=
      fun n => congrArg _ (beginSampling_eq (b.mid n p o u e))
    have hx3 : ∀ n, exec .sigAbandon (b.mid n p o u e) = .next (b.mid { n with val :=
        if b.sigRaised && b.cur.val.vParked then { n.val with vParked := false } else n.val } p o u e) :=
      fun n => congrArg _ (abandonWait_eq (b.mid n p o u e))
    have hx4 : ∀ n, exec .sigRestart (b.mid n p o u e) = .next (b.mid { n with
        resetFlag := if b.sigRaised && b.cur.resetFlag then false else n.resetFlag
        rx := if b.sigRaised && b.cur.resetFlag then { n.rx with rxIdx := 0 } else n.rx } p o u e) :=
      fun n => congrArg _ (restartSampling_eq (b.mid n p o u e))
    simp only [sigOps, hs, if_true, runOps, hx1, mid_pulseSignals, hx2, hx3, hx4]
    simp only [State.rxPulsed, State.valPulsed, hs]
    cases b.cur.rx.rxStarted <;> cases b.cur.resetFlag <;> cases b.cur.val.vParked <;> simp

/-! The encoded patterns of the cycle: what they write has been written already. -/

theorem decided_running {d : Bool} (h : b.decided = some d) :
    b.groupEnds = true ∧ b.rxRunning = true ∧ b.cur.resetFlag = false := by
  unfold State.decided State.published at h
  split at h
  · simp at h
  · split at h
    · rename_i hg
      simp only [Bool.and_eq_true] at hg
      have hs := hg.1
      simp only [State.groupEnds, State.rxSamples, Bool.and_eq_true] at hs
      have hr := hs.1.2
      simp only [State.rxRunning, Bool.and_eq_true, Bool.not_eq_true'] at hr
      exact ⟨hg.1, by simp [State.rxRunning, hr], hr.2⟩
    · simp at h

theorem valPulsed_of_decided {d : Bool} (h : b.decided = some d) (v : Validator) : b.valPulsed v = v := by
  simp [State.valPulsed, (not_waiting_of_decided b h).1]

/-- The state at the end of the operations of a cycle, before the edge. -/
def State.written (b : State) : State :=
  b.mid b.regsAfter b.pushNow b.popNow b.outNow b.eventsNow

theorem written_applyReaction {d : Bool} (h : b.decided = some d) :
    b.written.applyReaction b.reactionNow = b.written := by
  have hv : b.valAfter = b.reactionNow.val := valPulsed_of_decided b h _
  rw [State.written, mid_applyReaction]
  have h1 : b.outNow.emit b.reactionNow = b.outNow := by
    unfold Outputs.emit State.outNow
    cases b.reactionNow.msg <;> simp
  have h2 : b.eventsNow.merge b.reactionNow.events = b.eventsNow := by
    have : b.reactionNow.events.oversizeLine = false ∧ b.reactionNow.events.ambiguousSample = false := by
      simp only [State.reactionNow, h, Validator.react, Validator.reactSync, Validator.reactStx, Validator.reactId,
        Validator.reactLength, Validator.reactPayload, Validator.reactEnd, Reaction.quiet, Validator.indexFault,
        Validator.completeFrame]
      repeat' split
      all_goals simp [Events.none]
    simp [State.eventsNow, Events.merge, this]
  have h3 : ({ b.regsAfter with
      val := b.reactionNow.val
      resetFlag := if b.reactionNow.msg.isSome then true else b.regsAfter.resetFlag } : Regs) = b.regsAfter := by
    simp only [State.regsAfter, hv, State.resetFlagAfter]
    cases b.reactionNow.msg <;> simp
  rw [h1, h2, h3]

theorem feed_single (t : CompleteTrigger) (v : Validator) (d : Bool) : v.feed t [d] = v.react t d := by
  simp only [Validator.feed, Reaction.quiet, events_merge_none]
  cases h : (v.react t d).msg <;> simp [← h]

theorem run_decoded (pl : Place) (w : Octet) (s : State)
    (h : ∀ i, decodeAt pl w = .ok i → exec i s = .next s) : runOps (decodedAt pl w) s = .next s := by
  unfold decodedAt
  cases hd : decodeAt pl w with
  | error x => simp [Except.toOption, runOps]
  | ok i => simp [Except.toOption, runOps, h i hd]

theorem run_charOps : runOps (charOps b) b.written = .next b.written := by
  unfold charOps
  split
  · rename_i hacc
    apply run_decoded
    intro i hi
    have hready : b.charReady = true := by simp only [State.accepts, Bool.and_eq_true] at hacc; exact hacc.2
    have hst : b.cur.framer.fState = .accum := by
      simp only [State.charReady, Bool.and_eq_true, beq_iff_eq] at hready; exact hready.1
    have hsig : b.sigRaised = false := by simp [State.sigRaised, hst]
    have hx1 : exec .charLf b.written = if b.charReady then .next b.written.takeTerminator else .next b.written := rfl
    have hx2 : exec .charCr b.written = if b.charReady then .next b.written.takeTerminator else .next b.written := rfl
    have hx3 : ∀ c, exec (.charOther c) b.written =
      if b.charReady then .next (b.written.takeChar c) else .next b.written := fun _ => rfl
    have hterm : isTerminator b.inp.charData = true → b.written.takeTerminator = b.written := by
      intro ht
      have e1 : b.written.takeTerminator =
        if b.cur.framer.fLen.toNat ≤ 7 then b.written.startPush
        else if b.cur.framer.fLen = 8 then b.written.rejectLine else b.written := rfl
      rw [e1]
      split
      · rename_i h7
        simp [startPush_eq, State.written, State.mid, State.regsAfter, State.framerAfter, hsig, hacc, ht, h7]
      · rename_i h7
        split
        · rename_i h8
          have f4 : firesFTermOversize b = true := by simp [firesFTermOversize, hacc, ht, h8]
          have h8' : b.cur.framer.fLen = 8#4 := h8
          simp [rejectLine_eq, State.written, State.mid, State.regsAfter, State.framerAfter, hsig, hacc, ht, h8',
            State.outNow, State.eventsNow, f4, Events.merge, Events.none]
        · rfl
    simp only [decodeAt, decodeChar] at hi
    split at hi
    · rename_i hc
      obtain rfl : Instr.charLf = i := by simpa using hi
      rw [hx1, if_pos hready, hterm (by simp [isTerminator, hc])]
    · split at hi
      · rename_i hc
        obtain rfl : Instr.charCr = i := by simpa using hi
        rw [hx2, if_pos hready, hterm (by simp [isTerminator, hc])]
      · rename_i hc1 hc2
        obtain rfl : Instr.charOther b.inp.charData = i := by simpa using hi
        have ht : isTerminator b.inp.charData = false := by simp [isTerminator, hc1, hc2]
        rw [hx3, if_pos hready]
        have e1 : b.written.takeChar b.inp.charData =
          if b.cur.framer.fLen.toNat ≤ 6 then b.written.storeChar b.inp.charData else b.written.dropChar := rfl
        rw [e1]
        split
        · rename_i h6
          simp [storeChar_eq, State.written, State.mid, State.regsAfter, State.framerAfter, hsig, hacc, ht, h6]
        · rename_i h6
          simp [dropChar_eq, State.written, State.mid, State.regsAfter, State.framerAfter, hsig, hacc, ht, h6]
  · rfl

theorem header_of_decoded (l : BitVec 4) (n : BitVec 3)
    (h : idField (0xD0 ||| l.setWidth 8) = Config.idPattern ∧ lenField (0xD0 ||| l.setWidth 8) = n) :
    joinHeader Config.idPattern n = (0xD0 ||| l.setWidth 8) := by
  revert l n
  decide

theorem run_octetOps : runOps (octetOps b) b.written = .next b.written := by
  unfold octetOps
  split
  · rename_i pl w hpu hpl hw
    have hst : b.cur.framer.fState = .push := by
      simp only [State.pushes, Bool.and_eq_true, beq_iff_eq] at hpu; exact hpu.1
    have hsig : b.sigRaised = false := by simp [State.sigRaised, hst]
    have hacc : b.accepts = false := by simp [State.accepts, State.charReady, hst]
    have hemit : b.written.emitOctet w = b.written := by
      simp only [emitOctet_eq, State.written, State.mid, State.regsAfter, State.framerAfter, hsig, hacc, hpu,
        State.pushNow, hw, State.queueAfter]
      cases b.cur.framer.atEnd <;> cases b.popNow <;> simp
    have hif : ∀ c : Bool, (if c then Host.Outcome.next (b.written.emitOctet w) else Host.Outcome.next b.written) =
        (Host.Outcome.next b.written : Host.Outcome State Fault Refusal) := by
      intro c; rw [hemit]; cases c <;> rfl
    apply run_decoded
    intro i hi
    simp only [decodeAt] at hi
    simp only [Framer.frameByte, hpl] at hw
    cases pl <;> simp only [decodeOctet] at hi hw
    · split at hi
      · rename_i hx; obtain rfl : Instr.u = i := by simpa using hi
        subst hx; exact hif (firesU b)
      · simp at hi
    · split at hi
      · rename_i hx; obtain rfl : Instr.sync = i := by simpa using hi
        subst hx; exact hif (firesSync b)
      · simp at hi
    · split at hi
      · rename_i hx; obtain rfl : Instr.stx = i := by simpa using hi
        subst hx; exact hif (firesStx b)
      · simp at hi
    · split at hi
      · rename_i hx
        obtain rfl : Instr.header (lenField w) = i := by simpa using hi
        have hw' : w = 0xD0 ||| b.cur.framer.fLen.setWidth 8 := by simpa using hw.symm
        have hj : joinHeader Config.idPattern (lenField w) = w := by
          subst hw'
          exact header_of_decoded _ _ ⟨hx, rfl⟩
        have := hif (firesHeader (lenField w) b)
        show (if firesHeader (lenField w) b then
          Host.Outcome.next (b.written.emitOctet (joinHeader Config.idPattern (lenField w)))
          else Host.Outcome.next b.written) = _
        rw [hj]; exact this
      · simp at hi
    · split at hi
      · simp at hi
      · obtain rfl : Instr.payload w = i := by simpa using hi
        exact hif (firesPayload w b)
    · split at hi
      · rename_i hx; obtain rfl : Instr.endMarker = i := by simpa using hi
        subst hx; exact hif (firesEndMarker b)
      · simp at hi
  · rfl

theorem decodeAt_groupWord (s0 s1 s2 s3 : Bool) :
    decodeAt .sampleGroup (groupWord s0 s1 s2 s3) = .ok (decodeGroup s0 s1 s2 s3) := by
  cases s0 <;> cases s1 <;> cases s2 <;> cases s3 <;> rfl

theorem run_groupOps : runOps (groupOps b) b.written = .next b.written := by
  unfold groupOps
  split
  · rename_i hge
    have hs := hge
    simp only [State.groupEnds, Bool.and_eq_true, beq_iff_eq] at hs
    obtain ⟨hsam, hidx⟩ := hs
    have hrun : b.rxRunning = true := by
      simp only [State.rxSamples, Bool.and_eq_true] at hsam; exact hsam.2
    have htake : ∀ s1 s2, b.written.takeGroup false s1 s2 b.sample = b.written := by
      intro s1 s2
      have e1 := takeGroup_eq false s1 s2 b.sample b.written
      have e2 : b.written.rxRunning = b.rxRunning := rfl
      have e3 : b.written.cur = b.cur := rfl
      have e4 : [false, s1, s2, b.sample].drop b.cur.rx.rxIdx.toNat = [b.sample] := by rw [hidx]; rfl
      rw [e1, e2, if_pos hrun, e3, e4]
      simp only [Receiver.takeAll, events_merge_none]
      have hdr : b.cur.rx.drops = (b.groupEnds && b.cur.rx.rxS1 != b.cur.rx.rxS2) := by
        simp [Receiver.drops, hge, hidx]
      simp [State.written, State.mid, State.regsAfter, State.rxAfter, hsam, hdr, State.eventsNow, Events.merge,
        Events.none]
    apply run_decoded
    intro i hi
    rw [decodeAt_groupWord] at hi
    have hi' : decodeGroup false b.cur.rx.rxS1 b.cur.rx.rxS2 b.sample = i := by simpa using hi
    subst hi'
    unfold decodeGroup
    split
    · exact congrArg _ (htake false false)
    · exact congrArg _ (htake true true)
    · exact congrArg _ (htake false true)
    · exact congrArg _ (htake true false)
  · rfl

theorem joinHeader_fields (w : Octet) : joinHeader (idField w) (lenField w) = w := by
  revert w; decide

/-- An octet of which one bit is left is a reaction to that bit. -/
theorem receiveOctet_last (first : Nat) (w : Octet) (d : Bool) (hd : b.decided = some d)
    (hb : (octetBits w).drop (b.cur.val.count.toNat - first) = [d])
    (h1 : first ≤ b.cur.val.count.toNat) (h2 : b.cur.val.count.toNat < first + 8) :
    b.written.receiveOctet first w = b.written := by
  have e1 : b.written.receiveOctet first w =
    if first ≤ b.cur.val.count.toNat ∧ b.cur.val.count.toNat < first + 8 then
      b.written.applyReaction
        (b.cur.val.feed b.params.completeTrigger ((octetBits w).drop (b.cur.val.count.toNat - first)))
    else b.written := rfl
  have e2 : b.reactionNow = b.cur.val.react b.params.completeTrigger d := by simp [State.reactionNow, hd]
  rw [e1, if_pos ⟨h1, h2⟩, hb, feed_single, ← e2]
  exact written_applyReaction b hd

theorem octetBits_last (w : Octet) : (octetBits w).drop 7 = [w.getLsbD 0] := by
  revert w; decide

theorem octetBits_lastTwo (w : Octet) : (octetBits w).drop 6 = [w.getLsbD 1, w.getLsbD 0] := by
  revert w; decide

theorem run_headerRxOps : runOps (headerRxOps b) b.written = .next b.written := by
  unfold headerRxOps
  split
  · rfl
  · rename_i d hd
    split
    · rename_i hc
      apply run_decoded
      intro i hi
      simp only [decodeAt, decodeOctetRx] at hi
      obtain rfl := (Except.ok.injEq _ _).mp hi
      have hc' : b.cur.val.count.toNat = 23 := by rw [hc]; rfl
      refine congrArg _ (receiveOctet_last b 16 _ d hd ?_ (by omega) (by omega))
      rw [joinHeader_fields, hc', octetBits_last]
      have : ∀ (i : BitVec 5) (n : BitVec 3) (d : Bool), (joinHeader i (setBit 3 n 2 d)).getLsbD 0 = d := by decide
      rw [this]
    · rfl

/-- Once COMPLETE has parked the Validator, a further bit of the octet changes nothing (R140). -/
theorem feed_after_complete (t : CompleteTrigger) (v : Validator) (d : Bool)
    (h : v.react t d = v.completeFrame) (x : Bool) : v.feed t [d, x] = v.completeFrame := by
  have hw : (v.completeFrame.val.vParked || v.completeFrame.val.vFault) = true := by simp [Validator.completeFrame]
  have h2 : v.completeFrame.val.feed t [x] = Reaction.quiet v.completeFrame.val := by
    rw [feed_single, react_of_waiting _ _ _ hw]
  have e : v.feed t [d, x] =
      { val := ((v.react t d).val.feed t [x]).val
        msg := ((v.react t d).val.feed t [x]).msg <|> (v.react t d).msg
        events := (v.react t d).events.merge ((v.react t d).val.feed t [x]).events } := rfl
  rw [e, h, h2]
  rfl

theorem run_endRxOps : runOps (endRxOps b) b.written = .next b.written := by
  have hdec : ∀ x : Bool, decodeAt (.octetRx .endMarker) (0b0100001#7 ++ BitVec.ofBool x) = .ok (.endRx x) := by
    intro x; cases x <;> rfl
  unfold endRxOps
  split
  · rfl
  · rename_i d hd
    split
    · rename_i hc
      apply run_decoded
      intro i hi
      rw [hdec] at hi
      obtain rfl := (Except.ok.injEq _ _).mp hi
      refine congrArg _ (receiveOctet_last b (24 + b.cur.val.payloadBits.toNat) _ d hd ?_ (by omega) (by omega))
      rw [show b.cur.val.count.toNat - (24 + b.cur.val.payloadBits.toNat) = 7 by omega, octetBits_last]
      cases d <;> rfl
    · split
      · rename_i hc
        simp only [Bool.and_eq_true, beq_iff_eq] at hc
        obtain ⟨⟨hend, h6⟩, hcount⟩ := hc
        apply run_decoded
        intro i hi
        have hi' := hdec false
        rw [show (0b0100001#7 ++ BitVec.ofBool false : Octet) = 0b01000010 from rfl] at hi'
        rw [hi'] at hi
        obtain rfl := (Except.ok.injEq _ _).mp hi
        simp only [State.endCompletes, hd, Bool.and_eq_true, decide_eq_true_eq, beq_iff_eq] at hend
        obtain ⟨⟨⟨hph, hle⟩, hdd⟩, hca⟩ := hend
        have hd1 : d = true := by rw [hdd, h6]; rfl
        obtain ⟨hp, hv⟩ := not_waiting_of_decided b hd
        have hre : b.cur.val.react b.params.completeTrigger d = b.cur.val.completeFrame := by
          unfold Validator.react
          rw [if_neg (by simp [hp, hv]), hph]
          show b.cur.val.reactEnd b.params.completeTrigger d = _
          unfold Validator.reactEnd
          rw [if_neg (by omega), if_pos hdd, if_pos hca]
        have e2 : b.reactionNow = b.cur.val.react b.params.completeTrigger d := by simp [State.reactionNow, hd]
        have e1 : exec (.endRx false) b.written = .next (
          if 24 + b.cur.val.payloadBits.toNat ≤ b.cur.val.count.toNat ∧
              b.cur.val.count.toNat < 24 + b.cur.val.payloadBits.toNat + 8 then
            b.written.applyReaction (b.cur.val.feed b.params.completeTrigger
              ((octetBits (0b0100001#7 ++ BitVec.ofBool false)).drop
                (b.cur.val.count.toNat - (24 + b.cur.val.payloadBits.toNat))))
          else b.written) := rfl
        rw [e1, if_pos (by omega),
          show b.cur.val.count.toNat - (24 + b.cur.val.payloadBits.toNat) = 6 by omega, octetBits_lastTwo,
          show ([(0b0100001#7 ++ BitVec.ofBool false : Octet).getLsbD 1,
            (0b0100001#7 ++ BitVec.ofBool false : Octet).getLsbD 0]) = [true, false] from rfl,
          feed_after_complete _ _ _ (hd1 ▸ hre), ← hre, ← e2, written_applyReaction b hd]
      · rfl

end

/-! ### The cycle -/

/-- What the operations of a cycle write, all together. -/
theorem run_cycleOps (s : State)
    (h : s.pushes = true → s.cur.framer.frameByte.isSome = true) :
    runOps (cycleOps s.beginCycle) s.beginCycle = .next s.beginCycle.written := by
  let b := s.beginCycle
  have h' : b.pushes = true → b.cur.framer.frameByte.isSome = true := h
  have e0 : s.beginCycle = b.mid b.cur none false
      { Outputs.zero with lineOut := b.cur.tx.lineOut, charReady := b.charReady, vFault := b.cur.val.vFault }
      Events.none := rfl
  have hstart : runOps ([.tick] ++ framerOps b ++ txOps b ++ rxOps b ++ valOps b ++ sigOps b) s.beginCycle =
      .next b.written := by
    rw [e0]
    simp only [runOps_append, runOps_single _ _ _ (run_tick b _ _ _ _ _), run_framerOps b _ _ _ _ _ h', run_txOps,
      run_rxOps, run_valOps]
    have hpush : (if b.pushes then b.pushNow else none) = b.pushNow := by
      unfold State.pushNow; split <;> rfl
    have hq : (if b.popNow then b.cur.q.tail ++ b.pushNow.toList
        else if b.pushes then (if false = true then b.cur.q.tail else b.cur.q) ++ b.pushNow.toList else b.cur.q) =
        b.queueAfter := by
      unfold State.queueAfter
      cases hp : b.pushes
      · have : b.pushNow = none := by simp [State.pushNow, hp]
        cases b.popNow <;> simp [this]
      · cases b.popNow <;> simp
    have hrx : b.rxPulsed (b.rxWritten (b.rxPulsed b.cur.rx)) = b.rxAfter := by
      unfold State.rxWritten State.rxAfter
      cases hs : b.rxSamples
      · simp [rxPulsed_idem]
      · have hr : b.rxRunning = true := by
          simp only [State.rxSamples, Bool.and_eq_true] at hs; exact hs.2
        simp only [State.rxRunning, Bool.and_eq_true, Bool.not_eq_true'] at hr
        have hid : ∀ r, b.rxPulsed r = r := by intro r; simp [State.rxPulsed, hr.1, hr.2]
        simp only [hid, if_true, Receiver.take, State.groupEnds, hs, Bool.true_and, Bool.and_eq_true, beq_iff_eq]
    cases hd : b.decided with
    | none =>
      have hrn : b.reactionNow = Reaction.quiet b.cur.val := by simp [State.reactionNow, hd]
      simp only [Option.isSome_none, Bool.false_eq_true, if_false, run_sigOps, hpush, hrx, valPulsed_idem]
      simp only [Bool.false_eq_true, if_false] at hq
      simp only [hq]
      simp [State.written, State.mid, State.regsAfter, State.valAfter, hrn, Reaction.quiet, State.resetFlagAfter,
        State.outNow, State.eventsNow, Outputs.zero, Events.merge, Events.none]
    | some d =>
      have hrf := (decided_running b hd).2.2
      have hvp := valPulsed_of_decided b hd
      simp only [Option.isSome_some, if_true, mid_applyReaction, run_sigOps, hpush, hrx, hvp]
      simp only [Bool.false_eq_true, if_false] at hq
      simp only [hq, hrf, Bool.and_false, Bool.false_eq_true, if_false]
      have hev : b.reactionNow.events.oversizeLine = false ∧ b.reactionNow.events.ambiguousSample = false := by
        simp only [State.reactionNow, hd, Validator.react, Validator.reactSync, Validator.reactStx, Validator.reactId,
          Validator.reactLength, Validator.reactPayload, Validator.reactEnd, Reaction.quiet, Validator.indexFault,
          Validator.completeFrame]
        repeat' split
        all_goals simp [Events.none]
      simp only [State.written, State.mid, State.regsAfter, State.valAfter, hvp, State.resetFlagAfter, hrf,
        State.outNow, State.eventsNow, Outputs.zero, Outputs.emit, Events.merge, Events.none, hev]
      cases b.reactionNow.msg <;> simp
  have e1 : cycleOps s.beginCycle =
      [.tick] ++ framerOps b ++ txOps b ++ rxOps b ++ valOps b ++ sigOps b ++
        (charOps b ++ octetOps b ++ groupOps b ++ headerRxOps b ++ endRxOps b) := rfl
  rw [e1, runOps_append, hstart]
  simp only [runOps_append, run_charOps, run_octetOps, run_groupOps, run_headerRxOps, run_endRxOps]
  rfl

/-- One clock cycle with `rst` = 0 that does not fault: every register and port is at the value given by
`cycleAfter`. -/
theorem step_eq (s : State) (hrst : s.inp.rst = false)
    (h : s.pushes = true → s.cur.framer.frameByte.isSome = true) : step s = .next s.cycleAfter := by
  unfold step clockCycle
  rw [hrst, run_cycleOps s h]
  rfl

/-- A cycle with `rst` = 1 (R215). -/
theorem step_reset (s : State) (hrst : s.inp.rst = true) : step s = .next s.resetCycle := by
  unfold step clockCycle
  rw [hrst]
  rfl

/-- The one way a step stops: an `F.PUSH` where R95 defines no octet. -/
theorem step_fault (s : State) (hrst : s.inp.rst = false) (hp : s.pushes = true)
    (h : s.cur.framer.frameByte = none) : step s = .fault .frameIndex := by
  have hst : s.cur.framer.fState = .push := by
    simp only [State.pushes, Bool.and_eq_true, beq_iff_eq] at hp; exact hp.1
  have hfull : s.queueFull = false := by
    simp only [State.pushes, Bool.and_eq_true, Bool.not_eq_true'] at hp; exact hp.2
  have hl : framerOps s.beginCycle = [.fPush] := by
    have e : framerOps s.beginCycle = framerOps s := rfl
    rw [e]
    simp [framerOps, firesFChar, firesFCharOver, firesFTermOk, firesFTermOversize, firesFPush, firesFStall,
      firesFSignal, State.accepts, State.charReady, State.sigRaised, hst, hp, hfull]
  have hx : ∀ n e, exec .fPush ({ s.beginCycle with nxt := n, events := e } : State) = .fault .frameIndex := by
    intro n e
    show (if s.pushes then _ else _) = _
    rw [if_pos hp]
    show (match s.cur.framer.frameByte with | some v => _ | none => _) = _
    rw [h]
  have ht : exec .tick s.beginCycle =
      .next { s.beginCycle with nxt := { s.cur with tdiv := s.tdivAfter }, events := Events.none } := rfl
  unfold step clockCycle
  rw [hrst]
  simp only [cycleOps, runOps_append, hl, runOps, ht, hx]
  rfl

/-- What a step can answer (one inversion lemma for the whole machine): a reset cycle, a clock cycle, or the one
fault. -/
theorem step_cases (s : State) :
    (s.inp.rst = true ∧ step s = .next s.resetCycle)
    ∨ (s.inp.rst = false ∧ (s.pushes = true → s.cur.framer.frameByte.isSome = true) ∧ step s = .next s.cycleAfter)
    ∨ (s.inp.rst = false ∧ s.pushes = true ∧ s.cur.framer.frameByte = none ∧ step s = .fault .frameIndex) := by
  cases hr : s.inp.rst
  · by_cases h : s.pushes = true → s.cur.framer.frameByte.isSome = true
    · exact .inr (.inl ⟨rfl, h, step_eq s hr h⟩)
    · simp only [Classical.not_imp, Option.not_isSome_iff_eq_none] at h
      exact .inr (.inr ⟨rfl, h.1, h.2, step_fault s hr h.1 h.2⟩)
  · exact .inl ⟨rfl, step_reset s hr⟩

end Sys2Proof.Machine
end

