-- ==== Sys2Proof/Laws/PerInstr.lean ====
section
/-! SUPPORT. The statement made per instruction: an encoded pattern has one word and a place at which it is read, a
state-selected operation has neither (30_encoding.md section 7). One lemma per constructor. -/

namespace Sys2Proof.Laws

/-- One word exactly for the instructions that are read at a place. -/
def EncodedAtItsPlace.Statement (i : Instr) : Prop :=
  (encode i).length = if (placeOf i).isSome then 1 else 0

theorem EncodedAtItsPlace.u : EncodedAtItsPlace.Statement .u := rfl
theorem EncodedAtItsPlace.sync : EncodedAtItsPlace.Statement .sync := rfl
theorem EncodedAtItsPlace.stx : EncodedAtItsPlace.Statement .stx := rfl
theorem EncodedAtItsPlace.header (n : BitVec 3) : EncodedAtItsPlace.Statement (.header n) := rfl
theorem EncodedAtItsPlace.payload (c : Octet) : EncodedAtItsPlace.Statement (.payload c) := rfl
theorem EncodedAtItsPlace.endMarker : EncodedAtItsPlace.Statement .endMarker := rfl
theorem EncodedAtItsPlace.headerRx (id : BitVec 5) (n : BitVec 3) : EncodedAtItsPlace.Statement (.headerRx id n) := rfl
theorem EncodedAtItsPlace.endRx (x : Bool) : EncodedAtItsPlace.Statement (.endRx x) := rfl
theorem EncodedAtItsPlace.charLf : EncodedAtItsPlace.Statement .charLf := rfl
theorem EncodedAtItsPlace.charCr : EncodedAtItsPlace.Statement .charCr := rfl
theorem EncodedAtItsPlace.charOther (c : Octet) : EncodedAtItsPlace.Statement (.charOther c) := rfl
theorem EncodedAtItsPlace.groupZero (a b : Bool) : EncodedAtItsPlace.Statement (.groupZero a b) := rfl
theorem EncodedAtItsPlace.groupOne (a b : Bool) : EncodedAtItsPlace.Statement (.groupOne a b) := rfl
theorem EncodedAtItsPlace.groupDrop01 (a b : Bool) : EncodedAtItsPlace.Statement (.groupDrop01 a b) := rfl
theorem EncodedAtItsPlace.groupDrop10 (a b : Bool) : EncodedAtItsPlace.Statement (.groupDrop10 a b) := rfl
theorem EncodedAtItsPlace.fChar : EncodedAtItsPlace.Statement .fChar := rfl
theorem EncodedAtItsPlace.fCharOver : EncodedAtItsPlace.Statement .fCharOver := rfl
theorem EncodedAtItsPlace.fTermOk : EncodedAtItsPlace.Statement .fTermOk := rfl
theorem EncodedAtItsPlace.fTermOversize : EncodedAtItsPlace.Statement .fTermOversize := rfl
theorem EncodedAtItsPlace.fPush : EncodedAtItsPlace.Statement .fPush := rfl
theorem EncodedAtItsPlace.fStall : EncodedAtItsPlace.Statement .fStall := rfl
theorem EncodedAtItsPlace.fSignal : EncodedAtItsPlace.Statement .fSignal := rfl
theorem EncodedAtItsPlace.txLoad : EncodedAtItsPlace.Statement .txLoad := rfl
theorem EncodedAtItsPlace.txHold : EncodedAtItsPlace.Statement .txHold := rfl
theorem EncodedAtItsPlace.txShift : EncodedAtItsPlace.Statement .txShift := rfl
theorem EncodedAtItsPlace.txNext : EncodedAtItsPlace.Statement .txNext := rfl
theorem EncodedAtItsPlace.txIdle : EncodedAtItsPlace.Statement .txIdle := rfl
theorem EncodedAtItsPlace.txWait : EncodedAtItsPlace.Statement .txWait := rfl
theorem EncodedAtItsPlace.rxBegin : EncodedAtItsPlace.Statement .rxBegin := rfl
theorem EncodedAtItsPlace.rxPause : EncodedAtItsPlace.Statement .rxPause := rfl
theorem EncodedAtItsPlace.rxRestart : EncodedAtItsPlace.Statement .rxRestart := rfl
theorem EncodedAtItsPlace.rxSample : EncodedAtItsPlace.Statement .rxSample := rfl
theorem EncodedAtItsPlace.rxDecideAgree : EncodedAtItsPlace.Statement .rxDecideAgree := rfl
theorem EncodedAtItsPlace.rxDecideDrop : EncodedAtItsPlace.Statement .rxDecideDrop := rfl
theorem EncodedAtItsPlace.vSync : EncodedAtItsPlace.Statement .vSync := rfl
theorem EncodedAtItsPlace.vStx : EncodedAtItsPlace.Statement .vStx := rfl
theorem EncodedAtItsPlace.vId : EncodedAtItsPlace.Statement .vId := rfl
theorem EncodedAtItsPlace.vLength : EncodedAtItsPlace.Statement .vLength := rfl
theorem EncodedAtItsPlace.vPayload : EncodedAtItsPlace.Statement .vPayload := rfl
theorem EncodedAtItsPlace.vEnd : EncodedAtItsPlace.Statement .vEnd := rfl
theorem EncodedAtItsPlace.vComplete : EncodedAtItsPlace.Statement .vComplete := rfl
theorem EncodedAtItsPlace.tick : EncodedAtItsPlace.Statement .tick := rfl
theorem EncodedAtItsPlace.sig : EncodedAtItsPlace.Statement .sig := rfl
theorem EncodedAtItsPlace.sigBegin : EncodedAtItsPlace.Statement .sigBegin := rfl
theorem EncodedAtItsPlace.sigAbandon : EncodedAtItsPlace.Statement .sigAbandon := rfl
theorem EncodedAtItsPlace.sigRestart : EncodedAtItsPlace.Statement .sigRestart := rfl

end Sys2Proof.Laws
end

