-- ==== Sys2Proof/Laws/Queue.lean ====
section
/-! SUPPORT. The queue is the block's only store with an order of its own (R40, R55): a list is its own canonical
form, and what must hold of it is R25(c). Every queue operation keeps it, a cycle keeps it, and the reset state has
it. -/

namespace Sys2Proof.Machine

theorem queuePop_ok (s : State) (d : Nat) (hq : queueOk d s.cur.q) (hp : s.push = none) : queueOk d s.queuePop.nxt.q := by
  simp only [queueOk] at hq
  simp [queueOk, State.queuePop, State.requeue, hp]
  omega

theorem queuePush_ok (v : Octet) (s : State) (d : Nat) (hq : queueOk d s.cur.q) (hn : s.cur.q.length ≠ d) :
    queueOk d (s.queuePush v).nxt.q := by
  simp only [queueOk] at hq
  simp only [queueOk, State.queuePush, State.requeue]
  cases s.pop <;> simp <;> omega

/-- A cycle keeps the queue within its capacity (R25(c), R42 to R45). -/
theorem queueAfter_ok (s : State) (hq : queueOk s.params.queueDepth s.cur.q) :
    queueOk s.params.queueDepth s.queueAfter := by
  simp only [queueOk] at hq ⊢
  have hp : s.pushNow.toList.length ≤ s.params.queueDepth - s.cur.q.length := by
    simp only [State.pushNow]
    split
    · rename_i h
      simp only [State.pushes, State.queueFull, Bool.and_eq_true, Bool.not_eq_true', beq_eq_false_iff_ne] at h
      cases s.cur.framer.frameByte <;> simp
      omega
    · simp
  simp only [State.queueAfter, List.length_append]
  split <;> (try simp only [List.length_tail]) <;> omega

theorem reset_queueOk (d : Nat) : queueOk d State.reset.cur.q := Nat.zero_le d

end Sys2Proof.Machine
end

