-- ==== Sys2Proof/Tests/Slice0.lean ====
section
/-! SUPPORT. Tests: ill-formed terms, words written out from 30_encoding.md, rows of the spec's vectors
(95_test_vectors.md), and for each statement with hypotheses a concrete state that meets them. -/

namespace Sys2Proof.Machine

/-! ### Small states -/

/-- A state made from the reset state: parameters, registers, and the inputs of one cycle. -/
def tst (p : Params) (f : Regs → Regs) (i : Inputs) : State :=
  { State.reset with params := p, cur := f Regs.reset, nxt := f Regs.reset, script := [i] }

/-- Every cycle a tick, room for four octets. -/
def fast : Params := { tCycles := 1, queueDepth := 4, completeTrigger := .nextBit }

/-- The same under `SAME_BIT`. -/
def fastSame : Params := { fast with completeTrigger := .sameBit }

/-- No reset, no character, the line at 0. -/
def still : Inputs := quietInput (.level false)

/-- A character offered. -/
def typed (c : Octet) : Inputs := { rst := false, charValid := true, charData := c, line := .level false }

/-- A Framer in a state. -/
def framing (st : FState) (len idx : BitVec 4) (r : Regs) : Regs :=
  { r with framer := { fState := st, fLen := len, fBuf := Vector.replicate 7 0x41, fIdx := idx } }

/-- A running Receiver. -/
def hearing (idx : BitVec 2) (s1 s2 : Bool) (r : Regs) : Regs :=
  { r with rx := { rxStarted := true, rxIdx := idx, rxS1 := s1, rxS2 := s2, dbit := false } }

/-- A running Receiver that decides `d` in this cycle, and a Validator. -/
def deciding (d : Bool) (v : Validator) (r : Regs) : Regs := { hearing 3 d d r with val := v }

/-- A paused Receiver and a parked Validator. -/
def paused (r : Regs) : Regs :=
  { hearing 0 false false r with val := { Validator.reset with vParked := true }, resetFlag := true }

/-- A busy Transmitter. -/
def sending (idx : BitVec 3) (hold : BitVec 2) (q : List Octet) (r : Regs) : Regs :=
  { r with q := q, tx := { txBusy := true, txByte := 0x55, txIdx := idx, txHold := hold, lineOut := false } }

/-- The next state, if there is one. -/
def after : Host.Outcome State Fault Refusal → Option State
  | .next t => some t
  | .fault _ => none
  | .refused _ => none

/-- A Validator in step at `count` = c with `payload_bits` = 8, in the END phase or after it. -/
def ending (c : BitVec 7) (c6 : BitVec 3) : Validator :=
  { Validator.reset with
    count := c, count2 := 8, count3 := 5, count4 := 3, count5 := 8, count6 := c6, idBuf := 26, nBuf := 1,
    messageBuf := 0x41#56 <<< 48, payloadBits := 8 }

/-! ### Well-formedness: each check refuses an ill-formed term (R66, R70) -/

theorem test_wf_payload_lf : (Instr.payload 0x0A).wf = false := by decide
theorem test_wf_payload_cr : (Instr.payload 0x0D).wf = false := by decide
theorem test_wf_charOther_lf : (Instr.charOther 0x0A).wf = false := by decide
theorem test_wf_charOther_cr : (Instr.charOther 0x0D).wf = false := by decide

/-! ### Words written out from 30_encoding.md, each at its place -/

theorem test_decode_u : decodeAt (.octet .u) 0b01010101 = .ok .u := by decide
theorem test_decode_sync : decodeAt (.octet .sync) 0b01000001 = .ok .sync := by decide
theorem test_decode_stx : decodeAt (.octet .stx) 0b01000010 = .ok .stx := by decide
theorem test_decode_header : decodeAt (.octet .header) 0b11010110 = .ok (.header 6) := by decide
theorem test_decode_payload : decodeAt (.octet .payload) 0b01001000 = .ok (.payload 0x48) := by decide
theorem test_decode_end : decodeAt (.octet .endMarker) 0b01000011 = .ok .endMarker := by decide
theorem test_decode_headerRx : decodeAt (.octetRx .header) 0b00110100 = .ok (.headerRx 0b00110 0b100) := by decide
theorem test_decode_endRx_1 : decodeAt (.octetRx .endMarker) 0b01000011 = .ok (.endRx true) := by decide
theorem test_decode_endRx_0 : decodeAt (.octetRx .endMarker) 0b01000010 = .ok (.endRx false) := by decide
theorem test_decode_lf : decodeAt .inputChar 0b00001010 = .ok .charLf := by decide
theorem test_decode_cr : decodeAt .inputChar 0b00001101 = .ok .charCr := by decide
theorem test_decode_other : decodeAt .inputChar 0b11111111 = .ok (.charOther 0xFF) := by decide
theorem test_decode_zero : decodeAt .sampleGroup 0b1001 = .ok (.groupZero true true) := by decide
theorem test_decode_one : decodeAt .sampleGroup 0b0110 = .ok (.groupOne false false) := by decide
theorem test_decode_drop01 : decodeAt .sampleGroup 0b1011 = .ok (.groupDrop01 true true) := by decide
theorem test_decode_drop10 : decodeAt .sampleGroup 0b1101 = .ok (.groupDrop10 true true) := by decide
theorem test_decode_not_u : decodeAt (.octet .u) 0b01010100 = .error .notU := by decide
theorem test_decode_not_header : decodeAt (.octet .header) 0b11011000 = .error .notHeader := by decide
theorem test_decode_not_end : decodeAt (.octet .endMarker) 0b01000010 = .error .notEnd := by decide
theorem test_decode_not_endRx : decodeAt (.octetRx .endMarker) 0b01000001 = .error .notEndRx := by decide
theorem test_decode_lf_in_payload : decodeAt (.octet .payload) 0x0A = .error .terminatorInPayload := by decide
theorem test_decode_not_group : decodeAt .sampleGroup 0b10000 = .error .notGroup := by decide
theorem test_decode_short_frame : decodeFrame [0x55, 0x41, 0x42, 0xD1, 0x48] = .error .frameTooShort := by decide
theorem test_decode_long_frame : decodeFrame [0x55, 0x41, 0x42, 0xD0, 0x43, 0x43] = .error .frameTooLong := by decide

/-- The frame of `HI` (S3). -/
theorem test_frame_hi : encodeFrame [0x48, 0x49] = [85, 65, 66, 0xD2, 0x48, 0x49, 67] := by decide
/-- The empty frame (F-2, n = 0). -/
theorem test_frame_empty : encodeFrame [] = [85, 65, 66, 208, 67] := by decide

/-! ### A placed word is what the next step runs -/

theorem test_fetch_u : (after (step (State.reset.withFetchWord 8 0x55))).map (·.cur.q) = some [0x55] := by decide
theorem test_fetch_header : (after (step (State.reset.withFetchWord 8 0xD5))).map (·.cur.q) = some [0xD5] := by decide
theorem test_fetch_end :
    (after (step (State.reset.withFetchWord 8 0x43))).map (·.cur.framer.fState) = some .signal := by decide
theorem test_fetch_lf :
    (after (step (State.reset.withFetchWord 8 0x0A))).map (·.cur.framer.fState) = some .push := by decide
theorem test_fetch_char :
    (after (step (State.reset.withFetchWord 8 0x48))).map (·.cur.framer.fLen) = some 1 := by decide
theorem test_fetch_group_one :
    (after (step (State.reset.withFetchWord 8 0b0110))).map (·.cur.rx.dbit) = some true := by decide
theorem test_fetch_group_drop :
    (after (step (State.reset.withFetchWord 8 0b0010))).map (·.events.ambiguousSample) = some true := by decide

/-! ### Rows of the spec's vectors, one step each -/

/-- F-1 row 2: the seventh character. -/
theorem test_f1_2 :
    (after (step (tst fast (framing .accum 6 0) (typed 0x42)))).map (fun t => (t.cur.framer.fLen, t.cur.framer.fBuf[6]))
      = some (7, 0x42) := by decide
/-- F-1 row 3: the eighth is discarded. -/
theorem test_f1_3 :
    (after (step (tst fast (framing .accum 7 0) (typed 0x42)))).map (fun t => (t.cur.framer.fLen, t.cur.framer.fBuf[6]))
      = some (8, 0x41) := by decide
/-- F-1 row 6: an oversized line ended by a carriage return. -/
theorem test_f1_6 :
    (after (step (tst fast (framing .accum 8 0) (typed 0x0D)))).map
      (fun t => (t.out.errOversize, t.cur.framer.fLen, t.cur.framer.fState)) = some (true, 0, .accum) := by decide
/-- F-1 row 12: a character offered in `PUSH` is not accepted. -/
theorem test_f1_12 :
    (after (step (tst fast (framing .push 2 1) (typed 0x42)))).map (fun t => (t.out.charReady, t.cur.framer.fLen))
      = some (false, 2) := by decide
/-- F-1 row 16: full at the start of the cycle, so no push although an octet is popped. -/
theorem test_f1_16 :
    (after (step (tst fast (fun r => { framing .push 2 3 r with q := [1, 2, 3, 4] }) still))).map (·.cur.q)
      = some [2, 3, 4] := by decide
/-- T-1 cycle 32: the next octet starts in the tick in which the last one ends. -/
theorem test_t1_32 :
    (after (step (tst fast (sending 0 3 [0x41]) still))).map (·.cur.tx)
      = some { txBusy := true, txByte := 0x41, txIdx := 7, txHold := 0, lineOut := false } := by decide
/-- T-1 cycle 4: the second bit of 0x55. -/
theorem test_t1_4 :
    (after (step (tst fast (sending 7 3 []) still))).map (fun t => (t.cur.tx.txIdx, t.cur.tx.lineOut))
      = some (6, true) := by decide
/-- R-2, fourth tick: 0, 1, 1, 0 publish 1. -/
theorem test_r2_4 :
    (after (step (tst fast (hearing 3 true true) still))).map (·.cur.rx)
      = some { rxStarted := true, rxIdx := 0, rxS1 := true, rxS2 := true, dbit := true } := by decide
/-- R-3(b): `sig_begin` in a tick cycle takes no sample. -/
theorem test_r3_b :
    (after (step (tst fast (framing .signal 2 6) still))).map (fun t => (t.cur.rx.rxStarted, t.cur.rx.rxIdx))
      = some (true, 0) := by decide
/-- The example of R142: `count` = 3 and a 1 give `count` = 0. -/
theorem test_v_sync_example :
    (after (step (tst fast (deciding true { Validator.reset with count := 3 }) still))).map
      (fun t => (t.cur.val.count, t.events.syncMismatch)) = some (0, true) := by decide
/-- The example of R145: 0, 1, 0 give `payload_bits` = 16. -/
theorem test_v_length_example :
    (after (step (tst fast (deciding false
      { Validator.reset with count := 23, count2 := 8, count3 := 5, count4 := 2, nBuf := 0b010 }) still))).map
      (fun t => (t.cur.val.payloadBits, t.cur.val.count)) = some (16, 24) := by decide
/-- R154, row END mismatch. -/
theorem test_v_end_mismatch :
    (after (step (tst fast (deciding true (ending 32 0)) still))).map (·.cur.val)
      = some { ending 0 0 with count4 := 0, count5 := 0 } := by decide
/-- R149 under `NEXT_BIT`: the message, the clear, the pause. -/
theorem test_v_complete :
    (after (step (tst fast (deciding false (ending 39 7)) still))).map
      (fun t => (t.out.msgValid, t.out.msgId, t.out.msgLen, t.cur.resetFlag)) = some (true, 26, 1, true) := by decide
/-- R155: the stale sub-counter faults in the next STX phase. -/
theorem test_v_stale_faults :
    (after (step (tst fast (deciding false { Validator.reset with count := 8, count2 := 8, count3 := 5 }) still))).map
      (fun t => (t.cur.val.vFault, t.cur.val.count)) = some (true, 8) := by decide

/-! ### Witnesses: for each statement, concrete states that meet its hypotheses, for each clause -/

/-- A character at `f_len` = 6 (stored) and at `f_len` = 7 (discarded). -/
theorem witness_CharacterIsStoredOrDiscarded :
    ∀ n ∈ [(6 : BitVec 4), 7], let s := tst fast (framing .accum n 0) (typed 0x41);
      s.cur.framer.fState = .accum ∧ s.inp.rst = false ∧ s.inp.charValid = true ∧ s.inp.charData ≠ 0x0A
      ∧ s.inp.charData ≠ 0x0D ∧ (s.cur.framer.fLen.toNat ≤ 6 ∨ 7 ≤ s.cur.framer.fLen.toNat) := by decide

theorem witness_FTermOkStartsPush :
    let s := tst fast (framing .accum 7 0) (typed 0x0A)
    s.cur.framer.fState = .accum ∧ s.inp.rst = false ∧ s.inp.charValid = true
      ∧ (s.inp.charData = 0x0A ∨ s.inp.charData = 0x0D) ∧ s.cur.framer.fLen.toNat ≤ 7 := by decide

theorem witness_FTermOversizeRejectsLine :
    let s := tst fast (framing .accum 8 0) (typed 0x0D)
    s.cur.framer.fState = .accum ∧ s.inp.rst = false ∧ s.inp.charValid = true
      ∧ (s.inp.charData = 0x0A ∨ s.inp.charData = 0x0D) ∧ s.cur.framer.fLen = 8 := by decide

/-- The first octet, the first character and `END` of the longest frame. -/
theorem witness_FPushPushesFrameByte :
    ∀ i ∈ [(0 : BitVec 4), 4, 11], let s := tst fast (framing .push 7 i) still;
      s.cur.framer.fState = .push ∧ s.cur.q.length ≠ s.params.queueDepth ∧ s.cur.framer.fLen.toNat ≤ 7
      ∧ s.cur.framer.fIdx.toNat ≤ s.cur.framer.fLen.toNat + 4 := by decide

/-- One octet beyond `END` stops, `END` does not. -/
theorem witness_FPushStopsOnlyBeyondTheFrame :
    (let s := tst fast (framing .push 2 7) still;
      s.cur.framer.fState = .push ∧ s.cur.q.length ≠ s.params.queueDepth ∧ after (exec .fPush s) = none)
    ∧ (let s := tst fast (framing .push 2 6) still;
      s.cur.framer.fState = .push ∧ s.cur.q.length ≠ s.params.queueDepth ∧ after (exec .fPush s) ≠ none) := by decide

theorem witness_FStallChangesNothing :
    let s := tst fast (fun r => { framing .push 2 3 r with q := [1, 2, 3, 4] }) still;
    s.cur.framer.fState = .push ∧ s.cur.q.length = s.params.queueDepth := by decide

/-- `SIGNAL` with the Receiver waiting to begin, and with it paused. -/
theorem witness_FSignalRaisesTheSignals :
    ∀ s ∈ [tst fast (framing .signal 2 6) still, tst fast (fun r => framing .signal 2 6 (paused r)) still],
      s.cur.framer.fState = .signal ∧ s.inp.rst = false := by decide

/-- Each position of a frame with one character. -/
theorem witness_FrameOctetsArePushedAtTheirPlaces :
    (∀ i ∈ [(0 : BitVec 4), 1, 2, 3, 4, 5], let s := tst fast (framing .push 1 i) still;
      s.cur.framer.fState = .push ∧ s.cur.q.length ≠ s.params.queueDepth ∧ s.cur.framer.fLen.toNat ≤ 7)
    ∧ (let s := tst fast (framing .push 1 3) still;
      s.cur.framer.fIdx = 3 ∧ s.cur.framer.fLen.toNat = (1 : BitVec 3).toNat)
    ∧ (let s := tst fast (framing .push 1 4) still;
      s.cur.framer.fIdx.toNat = 4 + 0 ∧ 0 < s.cur.framer.fLen.toNat ∧ s.cur.framer.fBuf[0]? = some 0x41)
    ∧ (let s := tst fast (framing .push 1 5) still;
      s.cur.framer.fIdx.toNat = 4 + s.cur.framer.fLen.toNat) := by decide

/-- A terminator and a character at each boundary of `f_len`, and in `PUSH`. -/
theorem witness_InputCharactersDriveTheFramer :
    (Instr.charOther 0x41).wf = true
    ∧ (∀ n ∈ [(0 : BitVec 4), 6, 7, 8], let s := tst fast (framing .accum n 0) still;
        s.cur.framer.fState = .accum ∧ s.inp.rst = false)
    ∧ (tst fast (framing .push 0 0) still).cur.framer.fState ≠ .accum := by decide

/-- From idle (`TX.LOAD`) and at the end of an octet (`TX.NEXT`). -/
theorem witness_TxLoadAndTxNextStartAnOctet :
    (let s := tst fast (fun r => { r with q := [0x55] }) still;
      s.cur.tdiv = s.params.tCycles - 1 ∧ s.cur.q = 0x55 :: [] ∧ s.cur.tx.txBusy = false)
    ∧ (let s := tst fast (sending 0 3 [0x41]) still;
      s.cur.tdiv = s.params.tCycles - 1 ∧ s.cur.q = 0x41 :: [] ∧ s.cur.tx.txBusy = true ∧ s.cur.tx.txHold = 3
      ∧ s.cur.tx.txIdx = 0) := by decide

theorem witness_TxHoldCountsTheTick :
    let s := tst fast (sending 7 2 []) still;
    s.cur.tdiv = s.params.tCycles - 1 ∧ s.cur.tx.txBusy = true ∧ s.cur.tx.txHold.toNat < 3 := by decide

theorem witness_TxShiftPutsTheNextBit :
    let s := tst fast (sending 1 3 []) still;
    s.cur.tdiv = s.params.tCycles - 1 ∧ s.cur.tx.txBusy = true ∧ s.cur.tx.txHold = 3
      ∧ 0 < s.cur.tx.txIdx.toNat := by decide

theorem witness_TransmitterIdlesOnTheEmptyQueue :
    (let s := tst fast (sending 0 3 []) still;
      s.cur.tdiv = s.params.tCycles - 1 ∧ s.cur.q = [] ∧ s.cur.tx.txBusy = true ∧ s.cur.tx.txHold = 3
      ∧ s.cur.tx.txIdx = 0)
    ∧ (let s := tst fast id still;
      s.cur.tdiv = s.params.tCycles - 1 ∧ s.cur.q = [] ∧ s.cur.tx.txBusy = false) := by decide

/-- A tick cycle and a cycle between ticks. -/
theorem witness_TransmitterActsOncePerTick :
    (let s := tst fast (sending 0 3 []) still;
      s.inp.rst = false ∧ after (step s) ≠ none ∧ s.cur.tdiv = s.params.tCycles - 1)
    ∧ (let s := tst Params.defaults (sending 0 3 []) still;
      s.inp.rst = false ∧ after (step s) ≠ none ∧ s.cur.tdiv ≠ s.params.tCycles - 1) := by decide

theorem witness_OctetLeavesMsbFirstInCellsOfFourTicks :
    let s := tst fast (fun r =>
      { r with tx := { txBusy := true, txByte := 0x55, txIdx := 7, txHold := 0, lineOut := (0x55 : Octet).getLsbD 7 } })
      still
    Inv s ∧ 1 ≤ s.params.tCycles ∧ s.cur.tdiv = 0
      ∧ s.cur.tx = { txBusy := true, txByte := 0x55, txIdx := 7, txHold := 0, lineOut := (0x55 : Octet).getLsbD 7 }
      ∧ (∀ i ∈ s.script, i.rst = false) ∧ 31 < 32 * s.params.tCycles := by decide

/-- The first frame's signal, and one that finds the Receiver begun. -/
theorem witness_BeginSamplingStartsTheReceiver :
    (let s := tst fast (framing .signal 2 6) still;
      s.cur.framer.fState = .signal ∧ s.inp.rst = false ∧ s.cur.rx.rxStarted = false)
    ∧ (tst fast (hearing 0 false false) still).cur.rx.rxStarted = true := by decide

theorem witness_WaitingReceiverTakesNoSample :
    (tst fast id still).cur.rx.rxStarted = false ∧ (tst fast paused still).cur.resetFlag = true := by decide

theorem witness_RestartSamplingReleasesTheReceiver :
    (let s := tst fast (fun r => framing .signal 2 6 (paused r)) still;
      s.cur.framer.fState = .signal ∧ s.inp.rst = false ∧ s.cur.resetFlag = true)
    ∧ (tst fast (framing .signal 2 6) still).cur.resetFlag = false := by decide

theorem witness_RxSampleStoresTheSample :
    (let s := tst fast (hearing 1 false false) still;
      s.cur.tdiv = s.params.tCycles - 1 ∧ s.cur.rx.rxStarted = true ∧ s.cur.resetFlag = false
      ∧ s.inp.line = .level false)
    ∧ (let s := tst fast (hearing 2 false false) (quietInput .loopback);
      s.cur.tdiv = s.params.tCycles - 1 ∧ s.cur.rx.rxStarted = true ∧ s.cur.resetFlag = false
      ∧ s.inp.line = .loopback) := by decide

theorem witness_GroupEndPublishesOrDrops :
    ∀ b ∈ [true, false], let s := tst fast (hearing 3 true b) still;
      s.cur.tdiv = s.params.tCycles - 1 ∧ s.cur.rx.rxStarted = true ∧ s.cur.resetFlag = false
      ∧ s.cur.rx.rxIdx = 3 ∧ (s.cur.rx.rxS1 = s.cur.rx.rxS2 ↔ b = true) := by decide

theorem witness_GroupsDecideByTheMiddleSamples :
    (let s := tst fast (hearing 0 false false) still;
      s.cur.rx.rxStarted = true ∧ s.cur.resetFlag = false ∧ s.cur.rx.rxIdx = 0)
    ∧ (tst fast id still).cur.rx.rxStarted = false ∧ (tst fast paused still).cur.resetFlag = true := by decide

theorem witness_FourTicksDecideOneBit :
    let l := fun b => quietInput (.level b)
    let s := { tst fast (hearing 0 false false) still with script := [l false, l true, l true, l false] }
    Inv s ∧ s.params.tCycles = 1 ∧ s.script = l false :: l true :: l true :: l false :: []
      ∧ (l false).rst = false ∧ (l true).rst = false ∧ (l true).line = .level true ∧ (l false).line = .level false
      ∧ s.cur.rx.rxStarted = true ∧ s.cur.resetFlag = false ∧ s.cur.rx.rxIdx = 0 := by decide

/-- The last bit of `SYNC`, both values. -/
theorem witness_VSyncMatchesOneBit :
    ∀ d ∈ [true, false], let s := tst fast (deciding d { Validator.reset with count := 7 }) still;
      s.decided = some d ∧ s.cur.val.count.toNat ≤ 7 := by decide

/-- The guard, a match and a mismatch at the last bit of `STX`. -/
theorem witness_VStxMatchesOneBit :
    (let s := tst fast (deciding false { Validator.reset with count := 8, count2 := 8 }) still;
      s.decided = some false ∧ 8 ≤ s.cur.val.count.toNat ∧ s.cur.val.count.toNat ≤ 15 ∧ 7 < s.cur.val.count2.toNat)
    ∧ (∀ d ∈ [true, false], let s := tst fast (deciding d { Validator.reset with count := 15, count2 := 7 }) still;
      s.decided = some d ∧ 8 ≤ s.cur.val.count.toNat ∧ s.cur.val.count.toNat ≤ 15
      ∧ s.cur.val.count2.toNat ≤ 7) := by decide

theorem witness_VIdCapturesOneBit :
    ∀ c ∈ [(4 : BitVec 3), 5], let s := tst fast (deciding true { Validator.reset with count := 20, count3 := c }) still;
      s.decided = some true ∧ 16 ≤ s.cur.val.count.toNat ∧ s.cur.val.count.toNat ≤ 20
      ∧ (4 < s.cur.val.count3.toNat ↔ c = 5) := by decide

theorem witness_VLengthCapturesOneBit :
    ∀ c ∈ [(1 : BitVec 2), 2, 3], let s := tst fast (deciding true { Validator.reset with count := 23, count4 := c }) still;
      s.decided = some true ∧ 21 ≤ s.cur.val.count.toNat ∧ s.cur.val.count.toNat ≤ 23
      ∧ (2 < s.cur.val.count4.toNat ↔ c = 3) := by decide

theorem witness_VPayloadCapturesOneBit :
    ∀ c ∈ [(55 : BitVec 6), 56],
      let s := tst fast (deciding true { Validator.reset with count := 79, count5 := c, payloadBits := 56 }) still;
      s.decided = some true ∧ 24 ≤ s.cur.val.count.toNat ∧ s.cur.val.count.toNat ≤ 23 + s.cur.val.payloadBits.toNat
      ∧ (55 < s.cur.val.count5.toNat ↔ c = 56) := by decide

/-- The guard; a mismatch and a match at the seventh bit; the match that completes under `SAME_BIT`. -/
theorem witness_VEndMatchesOneBit :
    (∀ p ∈ [fast, fastSame], ∀ d ∈ [true, false], let s := tst p (deciding d (ending 38 6)) still;
      s.decided = some d ∧ 24 + s.cur.val.payloadBits.toNat ≤ s.cur.val.count.toNat
      ∧ s.cur.val.count.toNat = 30 + s.cur.val.payloadBits.toNat ∧ s.cur.val.count6.toNat ≤ 6
      ∧ (d = (67 : Octet).getLsbD (7 - s.cur.val.count6.toNat) ↔ d = true))
    ∧ (let s := tst fast (deciding true (ending 38 7)) still;
      s.decided = some true ∧ 24 + s.cur.val.payloadBits.toNat ≤ s.cur.val.count.toNat
      ∧ s.cur.val.count.toNat ≤ 30 + s.cur.val.payloadBits.toNat ∧ 6 < s.cur.val.count6.toNat) := by decide

theorem witness_VCompleteEmitsAndParks :
    let s := tst fast (deciding false (ending 39 7)) still;
    s.decided = some false ∧ 31 + s.cur.val.payloadBits.toNat ≤ s.cur.val.count.toNat := by decide

theorem witness_HeaderRxStoresBothFields :
    let s := tst fast (deciding false { Validator.reset with count := 16, count2 := 8 }) still;
    s.cur.val.vParked = false ∧ s.cur.val.vFault = false ∧ s.cur.val.count = 16 ∧ s.cur.val.count3 = 0
      ∧ s.cur.val.count4 = 0 := by decide

theorem witness_EndRxCompletesTheFrame :
    let s := tst fast (deciding false (ending 32 0)) still;
    s.cur.val.vParked = false ∧ s.cur.val.vFault = false
      ∧ s.cur.val.count.toNat = 24 + s.cur.val.payloadBits.toNat ∧ s.cur.val.count6 = 0 := by decide

/-- `count` below, at the last bit of, and beyond each octet. -/
theorem witness_ReceiveOctetsReactToTheBitsLeft :
    (tst fast (deciding false { Validator.reset with count := 15 }) still).cur.val.count.toNat < 16
    ∧ (tst fast (deciding false { Validator.reset with count := 23 }) still).cur.val.count.toNat = 16 + 7
    ∧ (tst fast (deciding false (ending 31 0)) still).cur.val.count.toNat < 24 + 8
    ∧ (tst fast (deciding false (ending 39 7)) still).cur.val.count.toNat = 24 + 8 + 7
    ∧ 32 + 8 ≤ (tst fast (deciding false (ending 40 7)) still).cur.val.count.toNat := by decide

theorem witness_EveryFrameDecodesToItsLine :
    [0x48, 0x49, 0x41, 0x42, 0x43, 0x44, (0x45 : Octet)].length ≤ 7 ∧ 8 ∈ [0, 3, 4, 7, 8] := by decide

theorem witness_SigRaisesAllThree :
    (let s := tst fast (framing .signal 2 6) still;
      s.cur.framer.fState = .signal ∧ s.inp.rst = false)
    ∧ (tst fast id still).cur.framer.fState ≠ .signal := by decide

theorem witness_SigAbandonUnparksTheValidator :
    (let s := tst fast (fun r => framing .signal 2 6 (paused r)) still;
      s.cur.framer.fState = .signal ∧ s.inp.rst = false ∧ s.cur.val.vParked = true)
    ∧ (tst fast (framing .signal 2 6) still).cur.val.vParked = false := by decide

theorem witness_UnawaitedSignalsAreLost :
    let s := tst fast (fun r => framing .signal 2 6 (hearing 2 true false r)) still;
    s.inp.rst = false ∧ s.cur.framer.fState = .signal ∧ s.cur.rx.rxStarted = true ∧ s.cur.resetFlag = false
      ∧ s.cur.val.vParked = false ∧ after (step s) ≠ none := by decide

/-- A cycle with a push and a pop. -/
theorem witness_QueueIsFirstInFirstOut :
    let s := tst fast (fun r => framing .push 2 3 (sending 0 3 [0x41, 0x42] r)) still;
    s.inp.rst = false ∧ after (step s) ≠ none ∧ firesTxNext s = true ∧ firesFPush s = true := by decide

theorem witness_StepRunsTheDecodedCharacter :
    let s := tst fast (framing .accum 7 0) (typed 0x0A)
    s.inp.rst = false ∧ s.cur.framer.fState = .accum ∧ s.inp.charValid = true
      ∧ decodeAt .inputChar s.inp.charData = .ok .charLf := by decide

theorem witness_StepRunsTheDecodedFrameOctet :
    let s := tst fast (framing .push 2 3) still;
    s.inp.rst = false ∧ s.cur.framer.fState = .push ∧ s.cur.q.length ≠ s.params.queueDepth
      ∧ s.cur.framer.place = some .header ∧ s.cur.framer.frameByte = some 0xD2
      ∧ decodeAt (.octet .header) 0xD2 = .ok (.header 2) := by decide

/-- An operation that writes registers and raises an event, one that only raises an event, one that drives
`err_oversize`, and an encoded pattern. -/
theorem witness_StepKeepsWhatEachOperationWrites :
    ∀ x ∈ [(tst fast (deciding true (ending 32 0)) still, Instr.vEnd),
        (tst fast (hearing 3 true false) still, .rxDecideDrop),
        (tst fast (framing .accum 8 0) (typed 0x0A), .fTermOversize), (tst fast (framing .push 2 3) still, .header 2)],
      x.1.inp.rst = false ∧ after (step x.1) ≠ none ∧ x.2 ∈ cycleOps x.1.beginCycle := by decide

/-- In an empty machine every one of these operations fails its condition. -/
theorem witness_OperationsThatDoNotFireChangeNothing :
    let s := tst Params.defaults id still;
    firesFChar s = false ∧ firesFCharOver s = false ∧ firesFTermOk s = false ∧ firesFTermOversize s = false
      ∧ firesFPush s = false ∧ firesFSignal s = false ∧ firesTxLoad s = false ∧ firesTxHold s = false
      ∧ firesTxShift s = false ∧ firesTxNext s = false ∧ firesTxIdle s = false ∧ firesRxSample s = false
      ∧ firesRxDecideAgree s = false ∧ firesRxDecideDrop s = false ∧ firesVComplete s = false
      ∧ (∀ p ∈ [Phase.sync, .stx, .id, .length, .payload, .endMarker], firesV p s = false) := by decide

theorem witness_ResetWinsOverEveryRule :
    (tst fast (sending 0 3 [1]) { still with rst := true }).inp.rst = true := by decide

theorem witness_NothingHappensUntilAFirstLine :
    let s := tst Params.defaults (fun r => { r with tdiv := 15 }) still;
    s.inp.rst = false ∧ s.inp.charValid = false ∧ s.cur = { Regs.reset with tdiv := s.cur.tdiv } := by decide

/-- A state inside a frame, in its END phase, with a step. -/
theorem witness_EveryStepKeepsInvariant :
    let s := tst fast (deciding true (ending 38 6)) still;
    Inv s ∧ after (step s) ≠ none := by decide

theorem witness_NoStepStopsUnderInvariant : Inv (tst fast (framing .push 7 11) still) := by decide

theorem witness_StaleValidatorNeverDelivers :
    let s := tst fast (deciding false { Validator.reset with count := 8, count2 := 8, count3 := 5 }) still;
    Inv s ∧ s.cur.val.stale ∧ s.inp.rst = false ∧ after (step s) ≠ none := by decide

theorem witness_FaultedValidatorIsFrozenUntilReset :
    let s := tst fast (deciding false { Validator.reset with count := 8, count2 := 8, count3 := 5, vFault := true }) still;
    s.cur.val.vFault = true ∧ s.cur.val.vParked = false ∧ s.inp.rst = false ∧ after (step s) ≠ none := by decide

theorem witness_EmittedMessagesAreZeroFilled :
    let s := tst fast (deciding false (ending 39 7)) still;
    Inv s ∧ (after (step s)).map (fun t => (t.out.msgValid, t.out.msgLen)) = some (true, 1) := by decide

theorem witness_PortsShowTheCycle :
    let s := tst fast (deciding false (ending 39 7)) still;
    s.inp.rst = false ∧ after (step s) ≠ none := by decide

theorem witness_AtMostOneEventPerPart :
    (after (step (tst fast (hearing 3 true false) still))).map (·.events.ambiguousSample) = some true := by decide

/-- Two boards whose lines agree and whose registers do not. -/
theorem witness_BoardsShareOnlyTheLine :
    let a := tst fast id still
    let b := tst fast (framing .push 2 3) still
    let b' := tst fast (framing .signal 2 6) still
    b ≠ b' ∧ b.cur.tx.lineOut = b'.cur.tx.lineOut
      ∧ (match Pair.step { a := a, b := b }, Pair.step { a := a, b := b' } with
        | .next _, .next _ => true
        | _, _ => false) = true := by decide

theorem witness_DecodeInvertsEncode :
    (Instr.payload 0x48).wf = true ∧ placeOf (.payload 0x48) = some (.octet .payload) := by decide

theorem witness_EncodeInvertsDecode : decodeAt (.octetRx .endMarker) 0x43 = .ok (.endRx true) := by decide

theorem witness_FramesDecodeToTheirOctets :
    [0x48, (0x49 : Octet)].length ≤ 7 ∧ ∀ c ∈ [0x48, (0x49 : Octet)], isTerminator c = false := by decide

end Sys2Proof.Machine
end

section
/-! PROOFS of the statements of 10_state.md: the reset table (R26) and the output ports of a cycle (R23). What `step`
answers is taken from `step_cases`; new here is which cycles emit a message. -/

namespace Sys2Proof.Machine

/-! ### Which reactions emit a message (R141 to R149) -/

theorem reactSync_msg (v : Validator) (d : Bool) : (v.reactSync d).msg = none := by
  unfold Validator.reactSync; split <;> rfl

theorem reactStx_msg (v : Validator) (d : Bool) : (v.reactStx d).msg = none := by
  unfold Validator.reactStx; repeat' split
  all_goals rfl

theorem reactId_msg (v : Validator) (d : Bool) : (v.reactId d).msg = none := by
  unfold Validator.reactId; split <;> rfl

theorem reactLength_msg (v : Validator) (d : Bool) : (v.reactLength d).msg = none := by
  unfold Validator.reactLength; split <;> rfl

theorem reactPayload_msg (v : Validator) (d : Bool) : (v.reactPayload d).msg = none := by
  unfold Validator.reactPayload; split <;> rfl

/-- The END phase emits on the matching bit that COMPLETE waits for under `SAME_BIT` (R147, R148), and on no other. -/
theorem reactEnd_msg (t : CompleteTrigger) (v : Validator) (d : Bool) :
    (v.reactEnd t d).msg =
      if v.count6.toNat ≤ 6 ∧ d = pat Config.endMarker v.count6.toNat ∧ v.completesAtEnd t = true then
        some v.message
      else none := by
  unfold Validator.reactEnd
  by_cases hguard : 6 < v.count6.toNat
  · rw [if_pos hguard, if_neg (by omega)]; rfl
  · rw [if_neg hguard]
    by_cases hbit : d = pat Config.endMarker v.count6.toNat
    · cases hlast : v.completesAtEnd t
      · simp [← hbit, Reaction.quiet]
      · simp [← hbit, Validator.completeFrame, Nat.le_of_not_lt hguard]
    · simp [hbit]

/-- `V.COMPLETE` fires on a decided bit in the last phase, or on the END bit that completes the frame (R148). -/
theorem firesVComplete_iff {s : State} {d : Bool} (hd : s.decided = some d) :
    firesVComplete s = true ↔
      s.cur.val.phase = .complete ∨
      (s.cur.val.phase = .endMarker ∧ s.cur.val.count6.toNat ≤ 6 ∧ d = pat Config.endMarker s.cur.val.count6.toNat
        ∧ s.cur.val.completesAtEnd s.params.completeTrigger = true) := by
  simp [firesVComplete, firesV, State.endCompletes, hd, and_assoc]

/-- A cycle emits a message exactly when `V.COMPLETE` fires in it, and then the decoded pre-edge buffers (R149, R150). -/
theorem reactionNow_msg (s : State) :
    s.reactionNow.msg = if firesVComplete s then some s.cur.val.message else none := by
  cases hd : s.decided with
  | none => simp [State.reactionNow, hd, Reaction.quiet, firesVComplete, firesV, State.endCompletes]
  | some d =>
    obtain ⟨hparked, hfault⟩ := not_waiting_of_decided s hd
    have hfires := firesVComplete_iff hd
    simp only [State.reactionNow, hd, Validator.react, hparked, hfault, Bool.or_self, Bool.false_eq_true, if_false,
      hfires]
    cases hphase : s.cur.val.phase with
    | sync => simp [reactSync_msg]
    | stx => simp [reactStx_msg]
    | id => simp [reactId_msg]
    | length => simp [reactLength_msg]
    | payload => simp [reactPayload_msg]
    | endMarker => simp [reactEnd_msg]
    | complete => simp [Validator.completeFrame]

/-! ### The ports of the two kinds of cycle -/

/-- `char_ready` (R99). -/
theorem charReady_iff (s : State) : s.charReady = true ↔ s.cur.framer.fState = .accum ∧ s.inp.rst = false := by
  simp [State.charReady]

/-- The message ports of a cycle with `rst` = 0: the decoded buffers when `V.COMPLETE` fires, else all 0 (R23). -/
theorem outNow_message (s : State) :
    s.outNow.msgValid = firesVComplete s
    ∧ s.outNow.msgId = (if firesVComplete s then s.cur.val.message.id else 0)
    ∧ s.outNow.msgLen = (if firesVComplete s then s.cur.val.message.len else 0)
    ∧ s.outNow.msgData = (if firesVComplete s then s.cur.val.message.data else 0) := by
  simp only [State.outNow, reactionNow_msg]
  cases firesVComplete s <;> exact ⟨rfl, rfl, rfl, rfl⟩

/-! ### The statements -/

/-- Settles O45: a reset cycle is `resetCycle`, whose registers are those of the table of R26. -/
theorem resetGivesEveryRegisterItsValue : Obligations.ResetGivesEveryRegisterItsValue :=
  ⟨fun s hrst => ⟨s.resetCycle, step_reset s hrst, rfl, rfl, rfl⟩, rfl⟩

/-- Settles O54: a step is a reset cycle, in which nothing is emitted, or a clock cycle, whose ports are `outNow`. -/
theorem portsShowTheCycle : Obligations.PortsShowTheCycle := by
  intro s t hstep
  obtain ⟨hrst, hreset⟩ | ⟨hrst, -, hcycle⟩ | ⟨-, -, -, hfault⟩ := step_cases s
  · obtain rfl : s.resetCycle = t := by simpa [hreset] using hstep
    simp [State.resetCycle, Outputs.zero, hrst]
  · obtain rfl : s.cycleAfter = t := by simpa [hcycle] using hstep
    obtain ⟨hvalid, hid, hlen, hdata⟩ := outNow_message s
    refine ⟨charReady_iff s, ?_, ?_, ?_, ?_, rfl, rfl⟩
    · show s.outNow.msgValid = true ↔ _
      simp [hvalid, hrst]
    · show s.outNow.msgValid = true → s.outNow.msgId = _ ∧ s.outNow.msgLen = _ ∧ s.outNow.msgData = _
      intro hv
      simp [hid, hlen, hdata, hvalid ▸ hv]
    · show s.outNow.msgValid = false → s.outNow.msgId = 0 ∧ s.outNow.msgLen = 0 ∧ s.outNow.msgData = 0
      intro hv
      simp [hid, hlen, hdata, hvalid ▸ hv]
    · show firesFTermOversize s = true ↔ _
      simp [hrst]
  · simp [hfault] at hstep

end Sys2Proof.Machine
end

section
/-! PROOFS of the statements of 40_framer.md: characters and terminators (R91 to R94), the push of one frame octet
(R95, R96) and the signals (R98). For each operation: when it fires, what it then runs, and what that writes (the
`_eq` lemmas of Laws). -/

namespace Sys2Proof.Machine

/-! ### When the operations fire -/

/-- R99: a character is offered and the Framer is ready. -/
theorem accepts_iff (s : State) :
    s.accepts = true ↔ s.inp.charValid = true ∧ s.cur.framer.fState = .accum ∧ s.inp.rst = false := by
  rw [State.accepts, Bool.and_eq_true, charReady_iff]

/-- The two terminators (R70). -/
theorem isTerminator_iff (c : Octet) : isTerminator c = true ↔ c = 0x0A ∨ c = 0x0D := by
  simp [isTerminator, Config.lineFeed, Config.carriageReturn]

theorem pushes_iff (s : State) :
    s.pushes = true ↔ s.cur.framer.fState = .push ∧ s.cur.q.length ≠ s.params.queueDepth := by
  simp [State.pushes, State.queueFull]

theorem sigRaised_iff (s : State) : s.sigRaised = true ↔ s.cur.framer.fState = .signal ∧ s.inp.rst = false := by
  simp [State.sigRaised]

theorem atEnd_iff (f : Framer) : f.atEnd = true ↔ f.fIdx.toNat = f.fLen.toNat + 4 := by
  simp [Framer.atEnd]

theorem firesFChar_iff (s : State) :
    firesFChar s = true ↔ s.accepts = true ∧ isTerminator s.inp.charData = false ∧ s.cur.framer.fLen.toNat ≤ 6 := by
  simp [firesFChar, and_assoc]

theorem firesFCharOver_iff (s : State) :
    firesFCharOver s = true ↔
      s.accepts = true ∧ isTerminator s.inp.charData = false ∧ 7 ≤ s.cur.framer.fLen.toNat := by
  simp [firesFCharOver, and_assoc]

theorem firesFTermOk_iff (s : State) :
    firesFTermOk s = true ↔ s.accepts = true ∧ isTerminator s.inp.charData = true ∧ s.cur.framer.fLen.toNat ≤ 7 := by
  simp [firesFTermOk, and_assoc]

theorem firesFTermOversize_iff (s : State) :
    firesFTermOversize s = true ↔
      s.accepts = true ∧ isTerminator s.inp.charData = true ∧ s.cur.framer.fLen = 8 := by
  simp [firesFTermOversize, and_assoc]

/-! ### What an operation that fires runs -/

theorem exec_fChar_of_fires {s : State} (h : firesFChar s = true) :
    exec .fChar s = .next (s.storeChar s.inp.charData) := if_pos h

theorem exec_fCharOver_of_fires {s : State} (h : firesFCharOver s = true) :
    exec .fCharOver s = .next s.dropChar := if_pos h

theorem exec_fTermOk_of_fires {s : State} (h : firesFTermOk s = true) :
    exec .fTermOk s = .next s.startPush := if_pos h

theorem exec_fTermOversize_of_fires {s : State} (h : firesFTermOversize s = true) :
    exec .fTermOversize s = .next s.rejectLine := if_pos h

theorem exec_fPush_of_frameByte {s : State} {v : Octet} (h : s.pushes = true)
    (hv : s.cur.framer.frameByte = some v) : exec .fPush s = .next (s.emitOctet v) := by
  show execFPush s = _
  simp only [execFPush, firesFPush, h, hv, if_true]

theorem exec_fSignal_of_sigRaised {s : State} (h : s.sigRaised = true) :
    exec .fSignal s = .next (s.pulseSignals.updFramer fun f => { f with fLen := 0, fState := .accum }) := if_pos h

/-! ### The frame octets, one equation per row of the table of R95 -/

section
variable {f : Framer}

theorem frameByte_u (h : f.fIdx = 0) : f.frameByte = some 85 := by
  simp [Framer.frameByte, Framer.place, h, Config.u]

theorem frameByte_sync (h : f.fIdx = 1) : f.frameByte = some 65 := by
  simp [Framer.frameByte, Framer.place, h, Config.sync]

theorem frameByte_stx (h : f.fIdx = 2) : f.frameByte = some 66 := by
  simp [Framer.frameByte, Framer.place, h, Config.stx]

theorem frameByte_header (h : f.fIdx = 3) : f.frameByte = some (0xD0 ||| f.fLen.setWidth 8) := by
  simp [Framer.frameByte, Framer.place, h]

/-- From index 4 on, the position is decided by `f_len` alone. -/
theorem place_of_four_le (h : 4 ≤ f.fIdx.toNat) :
    f.place =
      if f.fIdx.toNat < 4 + f.fLen.toNat then some .payload
      else if f.fIdx.toNat = 4 + f.fLen.toNat then some .endMarker
      else none := by
  have ne_of_lt (i : BitVec 4) (hi : i.toNat < 4) : f.fIdx ≠ i := by rintro rfl; omega
  rw [Framer.place, if_neg (ne_of_lt 0 (by decide)), if_neg (ne_of_lt 1 (by decide)),
    if_neg (ne_of_lt 2 (by decide)), if_neg (ne_of_lt 3 (by decide))]

theorem frameByte_payload {j : Nat} (hj : j < f.fLen.toNat) (h : f.fIdx.toNat = 4 + j) :
    f.frameByte = f.fBuf[j]? := by
  have hplace : f.place = some .payload := by
    rw [place_of_four_le (by omega), if_pos (by omega)]
  have hidx : f.fIdx.toNat - 4 = j := by omega
  simp only [Framer.frameByte, hplace, hidx]

theorem frameByte_endMarker (h : f.fIdx.toNat = 4 + f.fLen.toNat) : f.frameByte = some 67 := by
  have hplace : f.place = some .endMarker := by
    rw [place_of_four_le (by omega), if_neg (by omega), if_pos h]
  simp only [Framer.frameByte, hplace, Config.endMarker]

/-- The rows of the table of R95 cover every index up to that of `END`. -/
theorem frameIndex_cases (h : f.fIdx.toNat ≤ f.fLen.toNat + 4) :
    f.fIdx = 0 ∨ f.fIdx = 1 ∨ f.fIdx = 2 ∨ f.fIdx = 3
    ∨ (∃ j, j < f.fLen.toNat ∧ f.fIdx.toNat = 4 + j) ∨ f.fIdx.toNat = 4 + f.fLen.toNat := by
  by_cases hfour : 4 ≤ f.fIdx.toNat
  · by_cases hend : f.fIdx.toNat = 4 + f.fLen.toNat
    · simp only [hend, or_true]
    · exact .inr <| .inr <| .inr <| .inr <| .inl ⟨f.fIdx.toNat - 4, by omega, by omega⟩
  · bv_omega

/-- R95 defines `frame_byte` for every index of a frame of at most seven characters. -/
theorem frameByte_isSome (hlen : f.fLen.toNat ≤ 7) (hidx : f.fIdx.toNat ≤ f.fLen.toNat + 4) :
    ∃ v, f.frameByte = some v := by
  obtain h | h | h | h | ⟨j, hj, h⟩ | h := frameIndex_cases hidx
  · exact ⟨_, frameByte_u h⟩
  · exact ⟨_, frameByte_sync h⟩
  · exact ⟨_, frameByte_stx h⟩
  · exact ⟨_, frameByte_header h⟩
  · have hbuf : j < 7 := by omega
    exact ⟨f.fBuf[j], (frameByte_payload hj h).trans (Vector.getElem?_eq_getElem hbuf)⟩
  · exact ⟨_, frameByte_endMarker h⟩

end

/-! ### The three signals on the pre-edge state (R171 to R174) -/

theorem pulseSignals_of_sigRaised {s : State} (h : s.sigRaised = true) :
    s.pulseSignals =
      { s with nxt := { s.nxt with
        rx :=
          if s.cur.rx.rxStarted = false then { s.nxt.rx with rxStarted := true, rxIdx := 0 }
          else if s.cur.resetFlag = true then { s.nxt.rx with rxIdx := 0 }
          else s.nxt.rx
        val := if s.cur.val.vParked = true then { s.nxt.val with vParked := false } else s.nxt.val
        resetFlag := if s.cur.resetFlag = true then false else s.nxt.resetFlag } } := by
  calc s.pulseSignals
      = s.mid { s.nxt with
          rx := s.rxPulsed s.nxt.rx
          val := s.valPulsed s.nxt.val
          resetFlag := if s.sigRaised && s.cur.resetFlag then false else s.nxt.resetFlag }
          s.push s.pop s.out s.events := mid_pulseSignals s s.nxt s.push s.pop s.out s.events
    _ = _ := by simp [State.mid, State.rxPulsed, State.valPulsed, h]

/-! ### The statements -/

/-- Settles O1: the operation that fires is decided by `f_len`, and it writes what `storeChar` or `dropChar` does. -/
theorem characterIsStoredOrDiscarded : Obligations.CharacterIsStoredOrDiscarded := by
  intro s hstate hrst hvalid hlf hcr
  have haccepts : s.accepts = true := (accepts_iff s).mpr ⟨hvalid, hstate, hrst⟩
  have hchar : isTerminator s.inp.charData = false :=
    Bool.eq_false_iff.mpr fun h => ((isTerminator_iff _).mp h).elim hlf hcr
  refine ⟨fun hlen => ?_, fun hlen => ?_⟩
  · rw [exec_fChar_of_fires ((firesFChar_iff s).mpr ⟨haccepts, hchar, hlen⟩), storeChar_eq]
  · rw [exec_fCharOver_of_fires ((firesFCharOver_iff s).mpr ⟨haccepts, hchar, hlen⟩), dropChar_eq]

/-- Settles O2: F.TERM.OK fires and writes what `startPush` does. -/
theorem fTermOkStartsPush : Obligations.FTermOkStartsPush := by
  intro s hstate hrst hvalid hterm hlen
  have hfires : firesFTermOk s = true :=
    (firesFTermOk_iff s).mpr ⟨(accepts_iff s).mpr ⟨hvalid, hstate, hrst⟩, (isTerminator_iff _).mpr hterm, hlen⟩
  rw [exec_fTermOk_of_fires hfires, startPush_eq]

/-- Settles O3: F.TERM.OVERSIZE fires; merging its events into those of the cycle raises OversizeLine alone. -/
theorem fTermOversizeRejectsLine : Obligations.FTermOversizeRejectsLine := by
  intro s hstate hrst hvalid hterm hlen
  have hfires : firesFTermOversize s = true :=
    (firesFTermOversize_iff s).mpr ⟨(accepts_iff s).mpr ⟨hvalid, hstate, hrst⟩, (isTerminator_iff _).mpr hterm, hlen⟩
  have hevents : s.events.merge { Events.none with oversizeLine := true } = { s.events with oversizeLine := true } := by
    simp [Events.merge, Events.none]
  rw [exec_fTermOversize_of_fires hfires, rejectLine_eq, hevents]

/-- Settles O4: R95 defines the octet at every index of the frame, `frameByte` is it row by row, and F.PUSH pushes
it. -/
theorem fPushPushesFrameByte : Obligations.FPushPushesFrameByte := by
  intro s hstate hroom hlen hidx
  obtain ⟨v, hv⟩ := frameByte_isSome hlen hidx
  have pushed_eq {w : Octet} (hw : s.cur.framer.frameByte = some w) : v = w := Option.some.inj (hv.symm.trans hw)
  refine ⟨v, fun h => pushed_eq (frameByte_u h), fun h => pushed_eq (frameByte_sync h),
    fun h => pushed_eq (frameByte_stx h), fun h => pushed_eq (frameByte_header h),
    fun j hj h => (frameByte_payload hj h).symm.trans hv, fun h => pushed_eq (frameByte_endMarker h), ?_⟩
  rw [exec_fPush_of_frameByte ((pushes_iff s).mpr ⟨hstate, hroom⟩) hv, emitOctet_eq]
  simp only [atEnd_iff]

/-- Settles O7: in SIGNAL without reset the signals are raised, and F.SIGNAL writes them and the Framer's return. -/
theorem fSignalRaisesTheSignals : Obligations.FSignalRaisesTheSignals := by
  intro s hstate hrst
  have hraised : s.sigRaised = true := (sigRaised_iff s).mpr ⟨hstate, hrst⟩
  rw [exec_fSignal_of_sigRaised hraised, pulseSignals_of_sigRaised hraised]
  rfl

end Sys2Proof.Machine
end

section
/-! PROOFS of the statements of 41_transmitter.md: the load and the next octet (R111, R114), the hold (R112), the shift
(R113), and the empty queue (R115, R116). For each operation: when it fires, what it then runs, and what that
writes. -/

namespace Sys2Proof.Machine

/-! ### When the operations fire -/

/-- R170. -/
theorem tick_iff (s : State) : s.tick = true ↔ s.cur.tdiv = s.params.tCycles - 1 := by
  simp [State.tick]

theorem queueEmpty_iff (s : State) : s.queueEmpty = true ↔ s.cur.q = [] := by
  simp [State.queueEmpty]

theorem queueEmpty_of_cons {s : State} {b : Octet} {bs : List Octet} (h : s.cur.q = b :: bs) :
    s.queueEmpty = false := by
  simp [State.queueEmpty, h]

theorem txOctetEnds_iff (s : State) :
    s.txOctetEnds = true ↔
      s.tick = true ∧ s.cur.tx.txBusy = true ∧ s.cur.tx.txHold = 3 ∧ s.cur.tx.txIdx = 0 := by
  simp [State.txOctetEnds, and_assoc]

theorem firesTxLoad_iff (s : State) :
    firesTxLoad s = true ↔ s.tick = true ∧ s.cur.tx.txBusy = false ∧ s.queueEmpty = false := by
  simp [firesTxLoad, and_assoc]

theorem firesTxHold_iff (s : State) :
    firesTxHold s = true ↔ s.tick = true ∧ s.cur.tx.txBusy = true ∧ s.cur.tx.txHold.toNat < 3 := by
  simp [firesTxHold, and_assoc]

theorem firesTxShift_iff (s : State) :
    firesTxShift s = true ↔
      s.tick = true ∧ s.cur.tx.txBusy = true ∧ s.cur.tx.txHold = 3 ∧ 0 < s.cur.tx.txIdx.toNat := by
  simp [firesTxShift, and_assoc]

theorem firesTxNext_iff (s : State) :
    firesTxNext s = true ↔ s.txOctetEnds = true ∧ s.queueEmpty = false := by
  simp [firesTxNext]

theorem firesTxIdle_iff (s : State) :
    firesTxIdle s = true ↔ s.txOctetEnds = true ∧ s.queueEmpty = true := by
  simp [firesTxIdle]

/-! ### What an operation that fires runs -/

theorem exec_txLoad_of_fires {s : State} (h : firesTxLoad s = true) : exec .txLoad s = .next s.loadOctet := if_pos h

theorem exec_txNext_of_fires {s : State} (h : firesTxNext s = true) : exec .txNext s = .next s.loadOctet := if_pos h

theorem exec_txHold_of_fires {s : State} (h : firesTxHold s = true) :
    exec .txHold s = .next (s.updTx fun t => { t with txHold := s.cur.tx.txHold + 1 }) := if_pos h

theorem exec_txShift_of_fires {s : State} (h : firesTxShift s = true) :
    exec .txShift s =
      .next (s.updTx fun t =>
        { t with
          txIdx := s.cur.tx.txIdx - 1
          lineOut := s.cur.tx.txByte.getLsbD (s.cur.tx.txIdx.toNat - 1)
          txHold := 0 }) := if_pos h

theorem exec_txIdle_of_fires {s : State} (h : firesTxIdle s = true) : exec .txIdle s = .next (s.setTxBusy false) :=
  if_pos h

/-- `TX.WAIT` has no write to guard: it changes nothing whether or not it fires (R116). -/
theorem exec_txWait (s : State) : exec .txWait s = .next s := rfl

/-! ### What the operations write -/

theorem updTx_eq (f : Transmitter → Transmitter) (s : State) :
    s.updTx f = { s with nxt := { s.nxt with tx := f s.nxt.tx } } := rfl

theorem setTxBusy_eq (b : Bool) (s : State) :
    s.setTxBusy b = { s with nxt := { s.nxt with tx := { s.nxt.tx with txBusy := b } } } := rfl

/-- A load writes every Transmitter register, so nothing of `s.nxt.tx` is left. -/
theorem loadOctet_writes_every_register {s : State} {b : Octet} {bs : List Octet} (h : s.cur.q = b :: bs) :
    s.loadOctet =
      { s with
        pop := true
        nxt := { s.nxt with
          q := bs ++ s.push.toList
          tx := { txBusy := true, txByte := b, txIdx := 7, txHold := 0, lineOut := b.getLsbD 7 } } } :=
  loadOctet_cons s b bs h

/-! ### The statements -/

/-- Settles O10: from idle TX.LOAD fires, at the end of an octet TX.NEXT, and both are the one load. -/
theorem txLoadAndTxNextStartAnOctet : Obligations.TxLoadAndTxNextStartAnOctet := by
  intro s b bs htdiv hq
  have htick : s.tick = true := (tick_iff s).mpr htdiv
  have hqueue : s.queueEmpty = false := queueEmpty_of_cons hq
  refine ⟨fun hidle => ?_, fun hbusy hhold hidx => ?_⟩
  · rw [exec_txLoad_of_fires ((firesTxLoad_iff s).mpr ⟨htick, hidle, hqueue⟩), loadOctet_writes_every_register hq]
  · have hends : s.txOctetEnds = true := (txOctetEnds_iff s).mpr ⟨htick, hbusy, hhold, hidx⟩
    rw [exec_txNext_of_fires ((firesTxNext_iff s).mpr ⟨hends, hqueue⟩), loadOctet_writes_every_register hq]

/-- Settles O11: TX.HOLD fires and writes `tx_hold` alone. -/
theorem txHoldCountsTheTick : Obligations.TxHoldCountsTheTick := by
  intro s htdiv hbusy hhold
  rw [exec_txHold_of_fires ((firesTxHold_iff s).mpr ⟨(tick_iff s).mpr htdiv, hbusy, hhold⟩), updTx_eq]

/-- Settles O12: TX.SHIFT fires and writes the index, the line and the hold. -/
theorem txShiftPutsTheNextBit : Obligations.TxShiftPutsTheNextBit := by
  intro s htdiv hbusy hhold hidx
  rw [exec_txShift_of_fires ((firesTxShift_iff s).mpr ⟨(tick_iff s).mpr htdiv, hbusy, hhold, hidx⟩), updTx_eq]

/-- Settles O13: at the end of an octet TX.IDLE fires and writes `tx_busy` alone; TX.WAIT writes nothing. -/
theorem transmitterIdlesOnTheEmptyQueue : Obligations.TransmitterIdlesOnTheEmptyQueue := by
  intro s htdiv hq
  refine ⟨fun hbusy hhold hidx => ?_, fun _ => exec_txWait s⟩
  have hends : s.txOctetEnds = true := (txOctetEnds_iff s).mpr ⟨(tick_iff s).mpr htdiv, hbusy, hhold, hidx⟩
  rw [exec_txIdle_of_fires ((firesTxIdle_iff s).mpr ⟨hends, (queueEmpty_iff s).mpr hq⟩), setTxBusy_eq]

end Sys2Proof.Machine
end

section
/-! PROOFS of the statements of 42_receiver.md: the sample (R129). When the operation fires, what it then writes, and
where the sample comes from. -/

namespace Sys2Proof.Machine

/-! ### When the operation fires -/

theorem rxRunning_iff (s : State) :
    s.rxRunning = true ↔ s.cur.rx.rxStarted = true ∧ s.cur.resetFlag = false := by
  simp [State.rxRunning]

theorem firesRxSample_iff (s : State) :
    firesRxSample s = true ↔ s.tick = true ∧ s.cur.rx.rxStarted = true ∧ s.cur.resetFlag = false := by
  simp [firesRxSample, State.rxSamples, rxRunning_iff]

theorem exec_rxSample_of_fires {s : State} (h : firesRxSample s = true) :
    exec .rxSample s = .next (s.updRx fun r => r.store s.cur.rx.rxIdx s.sample) := if_pos h

/-! ### What it writes -/

theorem updRx_eq (f : Receiver → Receiver) (s : State) :
    s.updRx f = { s with nxt := { s.nxt with rx := f s.nxt.rx } } := rfl

/-- The two-bit index wraps as R129 counts it. -/
theorem rxIdx_succ_eq_mod_four (i : BitVec 2) : i + 1 = BitVec.ofNat 2 ((i.toNat + 1) % 4) := by
  apply BitVec.eq_of_toNat_eq
  simp [BitVec.toNat_add]

theorem store_eq (i : BitVec 2) (b : Bool) (r : Receiver) :
    r.store i b =
      { r with
        rxS1 := if i = 1 then b else r.rxS1
        rxS2 := if i = 2 then b else r.rxS2
        rxIdx := BitVec.ofNat 2 ((i.toNat + 1) % 4) } := by
  rw [Receiver.store, rxIdx_succ_eq_mod_four]

/-! ### Where the sample comes from -/

theorem sample_of_loopback {s : State} (h : s.inp.line = .loopback) : s.sample = s.cur.tx.lineOut := by
  simp only [State.sample, h]

theorem sample_of_level {s : State} {b : Bool} (h : s.inp.line = .level b) : s.sample = b := by
  simp only [State.sample, h]

/-! ### The statement -/

/-- Settles O19: RX.SAMPLE fires and writes what `store` does to the Receiver. -/
theorem rxSampleStoresTheSample : Obligations.RxSampleStoresTheSample := by
  intro s htdiv hstarted hflag
  refine ⟨?_, sample_of_loopback, fun _ => sample_of_level⟩
  have hfires : firesRxSample s = true := (firesRxSample_iff s).mpr ⟨(tick_iff s).mpr htdiv, hstarted, hflag⟩
  rw [exec_rxSample_of_fires hfires, updRx_eq, store_eq]

end Sys2Proof.Machine
end

section
/-! PROOFS of the statements of 43_validator.md: the reaction of each phase to a decided bit (R142 to R149). For each
operation: the phase that its range of `count` selects, the reaction that it then applies, and what each branch of that
reaction writes into the block. -/

namespace Sys2Proof.Machine

/-! ### Phase selection (R141): the range of `count` of each row -/

section
variable {v : Validator}

theorem phase_eq_sync (hle : v.count.toNat ≤ 7) : v.phase = .sync := if_pos hle

theorem phase_eq_stx (hge : 8 ≤ v.count.toNat) (hle : v.count.toNat ≤ 15) : v.phase = .stx := by
  rw [Validator.phase, if_neg (by omega), if_pos hle]

theorem phase_eq_id (hge : 16 ≤ v.count.toNat) (hle : v.count.toNat ≤ 20) : v.phase = .id := by
  rw [Validator.phase, if_neg (by omega), if_neg (by omega), if_pos hle]

theorem phase_eq_length (hge : 21 ≤ v.count.toNat) (hle : v.count.toNat ≤ 23) : v.phase = .length := by
  rw [Validator.phase, if_neg (by omega), if_neg (by omega), if_neg (by omega), if_pos hle]

/-- From `count` = 24 on, the phase is decided by `payload_bits`. -/
theorem phase_of_header_done (hge : 24 ≤ v.count.toNat) :
    v.phase =
      if v.count.toNat ≤ 23 + v.payloadBits.toNat then .payload
      else if v.count.toNat ≤ 30 + v.payloadBits.toNat then .endMarker
      else .complete := by
  rw [Validator.phase, if_neg (by omega), if_neg (by omega), if_neg (by omega), if_neg (by omega)]

theorem phase_eq_payload (hge : 24 ≤ v.count.toNat) (hle : v.count.toNat ≤ 23 + v.payloadBits.toNat) :
    v.phase = .payload := by
  rw [phase_of_header_done hge, if_pos hle]

theorem phase_eq_endMarker (hge : 24 + v.payloadBits.toNat ≤ v.count.toNat)
    (hle : v.count.toNat ≤ 30 + v.payloadBits.toNat) : v.phase = .endMarker := by
  rw [phase_of_header_done (by omega), if_neg (by omega), if_pos hle]

theorem phase_eq_complete (hge : 31 + v.payloadBits.toNat ≤ v.count.toNat) : v.phase = .complete := by
  rw [phase_of_header_done (by omega), if_neg (by omega), if_neg (by omega)]

end

/-! ### What an operation whose phase is selected runs -/

/-- The phase that handles the decided bit applies its reaction to it (R140). -/
theorem reactIn_of_phase {s : State} {d : Bool} {p : Phase} (hd : s.decided = some d) (hp : s.cur.val.phase = p)
    (f : Validator → Bool → Reaction) : s.reactIn p f = s.applyReaction (f s.cur.val d) := by
  simp only [State.reactIn, hd, if_pos hp]

section
variable {s : State} {d : Bool}

theorem exec_vSync_of_phase (hd : s.decided = some d) (hp : s.cur.val.phase = .sync) :
    exec .vSync s = .next (s.applyReaction (s.cur.val.reactSync d)) :=
  congrArg Host.Outcome.next (reactIn_of_phase hd hp _)

theorem exec_vStx_of_phase (hd : s.decided = some d) (hp : s.cur.val.phase = .stx) :
    exec .vStx s = .next (s.applyReaction (s.cur.val.reactStx d)) :=
  congrArg Host.Outcome.next (reactIn_of_phase hd hp _)

theorem exec_vId_of_phase (hd : s.decided = some d) (hp : s.cur.val.phase = .id) :
    exec .vId s = .next (s.applyReaction (s.cur.val.reactId d)) :=
  congrArg Host.Outcome.next (reactIn_of_phase hd hp _)

theorem exec_vLength_of_phase (hd : s.decided = some d) (hp : s.cur.val.phase = .length) :
    exec .vLength s = .next (s.applyReaction (s.cur.val.reactLength d)) :=
  congrArg Host.Outcome.next (reactIn_of_phase hd hp _)

theorem exec_vPayload_of_phase (hd : s.decided = some d) (hp : s.cur.val.phase = .payload) :
    exec .vPayload s = .next (s.applyReaction (s.cur.val.reactPayload d)) :=
  congrArg Host.Outcome.next (reactIn_of_phase hd hp _)

theorem exec_vEnd_of_phase (hd : s.decided = some d) (hp : s.cur.val.phase = .endMarker) :
    exec .vEnd s = .next (s.applyReaction (s.cur.val.reactEnd s.params.completeTrigger d)) :=
  congrArg Host.Outcome.next (reactIn_of_phase hd hp _)

theorem exec_vComplete_of_fires (h : firesVComplete s = true) :
    exec .vComplete s = .next (s.applyReaction s.cur.val.completeFrame) := if_pos h

end

/-! ### The reaction of each phase, one equation per branch (R142 to R147) -/

/-- `pat(P, k)` counts the bits of a marker from its most significant one. -/
theorem pat_eq_getLsbD (p : Octet) {k : Nat} (hk : k ≤ 7) : pat p k = p.getLsbD (7 - k) := by
  have hlt : k < 8 := by omega
  simp [pat, BitVec.getMsbD, hlt]

/-- With the third bit of the length, `payload_bits` is eight times the length: 56 at most, so six bits hold it. -/
theorem payloadBits_toNat (n : BitVec 3) : (n.setWidth 6 <<< 3).toNat = 8 * n.toNat := by
  have hn : n.toNat < 8 := n.isLt
  simp only [BitVec.toNat_shiftLeft, BitVec.toNat_setWidth, Nat.shiftLeft_eq]
  omega

section
variable {v : Validator} {d : Bool}

theorem reactSync_of_match (hbit : d = pat Config.sync v.count.toNat) :
    v.reactSync d = Reaction.quiet { v with count := v.count + 1 } := if_pos hbit

theorem reactSync_of_mismatch (hbit : d ≠ pat Config.sync v.count.toNat) :
    v.reactSync d =
      { val := { v with count := 0 }, msg := none, events := { Events.none with syncMismatch := true } } := if_neg hbit

theorem reactStx_of_guard (hguard : 7 < v.count2.toNat) : v.reactStx d = v.indexFault := if_pos hguard

theorem reactStx_of_match (hidx : v.count2.toNat ≤ 7) (hbit : d = pat Config.stx v.count2.toNat) :
    v.reactStx d = Reaction.quiet { v with count := v.count + 1, count2 := v.count2 + 1 } := by
  rw [Validator.reactStx, if_neg (by omega), if_pos hbit]

theorem reactStx_of_mismatch (hidx : v.count2.toNat ≤ 7) (hbit : d ≠ pat Config.stx v.count2.toNat) :
    v.reactStx d =
      { val := { v with count := 0, count2 := 0 }, msg := none,
        events := { Events.none with stxMismatch := true } } := by
  rw [Validator.reactStx, if_neg (by omega), if_neg hbit]

theorem reactId_of_guard (hguard : 4 < v.count3.toNat) : v.reactId d = v.indexFault := if_pos hguard

theorem reactId_of_room (hidx : v.count3.toNat ≤ 4) :
    v.reactId d =
      Reaction.quiet
        { v with idBuf := setBit 5 v.idBuf v.count3.toNat d, count3 := v.count3 + 1, count := v.count + 1 } :=
  if_neg (Nat.not_lt.mpr hidx)

theorem reactLength_of_guard (hguard : 2 < v.count4.toNat) : v.reactLength d = v.indexFault := if_pos hguard

theorem reactLength_of_room (hidx : v.count4.toNat ≤ 2) :
    v.reactLength d =
      Reaction.quiet
        { v with
          nBuf := setBit 3 v.nBuf v.count4.toNat d
          payloadBits :=
            if v.count4.toNat + 1 = 3 then (setBit 3 v.nBuf v.count4.toNat d).setWidth 6 <<< 3 else v.payloadBits
          count4 := v.count4 + 1
          count := v.count + 1 } :=
  if_neg (Nat.not_lt.mpr hidx)

theorem reactPayload_of_guard (hguard : 55 < v.count5.toNat) : v.reactPayload d = v.indexFault := if_pos hguard

theorem reactPayload_of_room (hidx : v.count5.toNat ≤ 55) :
    v.reactPayload d =
      Reaction.quiet
        { v with
          messageBuf := setBit 56 v.messageBuf v.count5.toNat d, count5 := v.count5 + 1, count := v.count + 1 } :=
  if_neg (Nat.not_lt.mpr hidx)

variable {t : CompleteTrigger}

/-- At `count` = 30 + pb the matching bit is the seventh, which completes under `SAME_BIT` (R147, R148). -/
theorem completesAtEnd_iff :
    v.completesAtEnd t = true ↔ t = .sameBit ∧ 30 + v.payloadBits.toNat ≤ v.count.toNat := by
  simp [Validator.completesAtEnd]

theorem reactEnd_of_guard (hguard : 6 < v.count6.toNat) : v.reactEnd t d = v.indexFault := if_pos hguard

theorem reactEnd_of_mismatch (hidx : v.count6.toNat ≤ 6) (hbit : d ≠ pat Config.endMarker v.count6.toNat) :
    v.reactEnd t d =
      { val := { v with count := 0, count4 := 0, count5 := 0, count6 := 0 }, msg := none,
        events := { Events.none with endMismatch := true } } := by
  rw [Validator.reactEnd, if_neg (by omega), if_neg hbit]

theorem reactEnd_of_match (hidx : v.count6.toNat ≤ 6) (hbit : d = pat Config.endMarker v.count6.toNat)
    (hmore : ¬ v.completesAtEnd t = true) :
    v.reactEnd t d = Reaction.quiet { v with count6 := v.count6 + 1, count := v.count + 1 } := by
  rw [Validator.reactEnd, if_neg (by omega), if_pos hbit, if_neg hmore]

theorem reactEnd_of_last_match (hidx : v.count6.toNat ≤ 6) (hbit : d = pat Config.endMarker v.count6.toNat)
    (hlast : v.completesAtEnd t = true) : v.reactEnd t d = v.completeFrame := by
  rw [Validator.reactEnd, if_neg (by omega), if_pos hbit, if_pos hlast]

end

/-! ### What a reaction writes into the block -/

/-- A reaction without a message writes the Validator's registers and raises its events. -/
theorem applyReaction_of_msg_none {r : Reaction} (h : r.msg = none) (s : State) :
    s.applyReaction r = { s with nxt := { s.nxt with val := r.val }, events := s.events.merge r.events } := by
  simp [applyReaction_eq, h]

theorem applyReaction_quiet (v : Validator) (s : State) :
    s.applyReaction (Reaction.quiet v) = { s with nxt := { s.nxt with val := v } } := by
  rw [applyReaction_of_msg_none rfl]
  simp [Reaction.quiet]

/-- R153, R196. -/
theorem applyReaction_indexFault (v : Validator) (s : State) :
    s.applyReaction v.indexFault =
      { s with
        nxt := { s.nxt with val := { v with vFault := true } }
        events := { s.events with validatorIndexFault := true } } := by
  rw [applyReaction_of_msg_none rfl]
  simp [Validator.indexFault, Events.merge, Events.none]

/-- R149: the message of `v` on the ports, `v` cleared and parked, `reset_flag` set. -/
theorem applyReaction_completeFrame (v : Validator) (s : State) :
    s.applyReaction v.completeFrame =
      { s with
        nxt := { s.nxt with val := { Validator.reset with vParked := true, vFault := v.vFault }, resetFlag := true }
        out := { s.out with msgValid := true, msgId := v.idBuf, msgLen := v.nBuf, msgData := v.messageBuf } } := by
  simp [applyReaction_eq, Validator.completeFrame, Validator.message]

theorem merge_syncMismatch (e : Events) :
    e.merge { Events.none with syncMismatch := true } = { e with syncMismatch := true } := by
  simp [Events.merge, Events.none]

theorem merge_stxMismatch (e : Events) :
    e.merge { Events.none with stxMismatch := true } = { e with stxMismatch := true } := by
  simp [Events.merge, Events.none]

theorem merge_endMismatch (e : Events) :
    e.merge { Events.none with endMismatch := true } = { e with endMismatch := true } := by
  simp [Events.merge, Events.none]

/-! ### The statements -/

/-- Settles O24: `count` selects the SYNC phase and is itself the index of the bit compared. -/
theorem vSyncMatchesOneBit : Obligations.VSyncMatchesOneBit := by
  intro s d hd hle
  rw [← pat_eq_getLsbD _ hle, exec_vSync_of_phase hd (phase_eq_sync hle)]
  refine ⟨fun hbit => ?_, fun hbit => ?_⟩
  · rw [reactSync_of_match hbit, applyReaction_quiet]
  · rw [reactSync_of_mismatch hbit, applyReaction_of_msg_none rfl, merge_syncMismatch]

/-- Settles O25: `count` selects the STX phase; `count2` is guarded, then it is the index of the bit compared. -/
theorem vStxMatchesOneBit : Obligations.VStxMatchesOneBit := by
  intro s d hd hge hle
  rw [exec_vStx_of_phase hd (phase_eq_stx hge hle)]
  refine ⟨fun hguard => ?_, fun hidx hbit => ?_, fun hidx hbit => ?_⟩
  · rw [reactStx_of_guard hguard, applyReaction_indexFault]
  · rw [← pat_eq_getLsbD _ hidx] at hbit
    rw [reactStx_of_match hidx hbit, applyReaction_quiet]
  · rw [← pat_eq_getLsbD _ hidx] at hbit
    rw [reactStx_of_mismatch hidx hbit, applyReaction_of_msg_none rfl, merge_stxMismatch]

/-- Settles O26: below the guard the buffer written is `setBit` at `count3`. -/
theorem vIdCapturesOneBit : Obligations.VIdCapturesOneBit := by
  intro s d hd hge hle
  rw [exec_vId_of_phase hd (phase_eq_id hge hle)]
  refine ⟨fun hguard => ?_, fun hidx => ?_⟩
  · rw [reactId_of_guard hguard, applyReaction_indexFault]
  · rw [reactId_of_room hidx, applyReaction_quiet]
    exact ⟨_, fun j => getMsbD_setBit 5 _ _ j d (Nat.lt_succ_of_le hidx), rfl⟩

/-- Settles O27: below the guard the buffer written is `setBit` at `count4`, and `payload_bits` is computed from it
exactly where `count4` is the last index. -/
theorem vLengthCapturesOneBit : Obligations.VLengthCapturesOneBit := by
  intro s d hd hge hle
  rw [exec_vLength_of_phase hd (phase_eq_length hge hle)]
  refine ⟨fun hguard => ?_, fun hidx => ?_⟩
  · rw [reactLength_of_guard hguard, applyReaction_indexFault]
  · rw [reactLength_of_room hidx, applyReaction_quiet]
    refine ⟨_, _, fun j => getMsbD_setBit 3 _ _ j d (Nat.lt_succ_of_le hidx), fun hlast => ?_, fun hmore => ?_, rfl⟩
    · rw [if_pos (by omega), payloadBits_toNat]
    · rw [if_neg (by omega)]

/-- Settles O28: below the guard the buffer written is `setBit` at `count5`. -/
theorem vPayloadCapturesOneBit : Obligations.VPayloadCapturesOneBit := by
  intro s d hd hge hle
  rw [exec_vPayload_of_phase hd (phase_eq_payload hge hle)]
  refine ⟨fun hguard => ?_, fun hidx => ?_⟩
  · rw [reactPayload_of_guard hguard, applyReaction_indexFault]
  · rw [reactPayload_of_room hidx, applyReaction_quiet]
    exact ⟨_, fun j => getMsbD_setBit 56 _ _ j d (Nat.lt_succ_of_le hidx), rfl⟩

/-- Settles O29: `count6` is guarded, then it is the index of the bit compared; under `SAME_BIT` the last match is
COMPLETE, which `V.COMPLETE` fires on too. -/
theorem vEndMatchesOneBit : Obligations.VEndMatchesOneBit := by
  intro s d hd hge hle
  have hphase : s.cur.val.phase = .endMarker := phase_eq_endMarker hge hle
  have hpat (hidx : s.cur.val.count6.toNat ≤ 6) :
      (67 : Octet).getLsbD (7 - s.cur.val.count6.toNat) = pat Config.endMarker s.cur.val.count6.toNat :=
    (pat_eq_getLsbD _ (by omega)).symm
  rw [exec_vEnd_of_phase hd hphase]
  refine ⟨fun hguard => ?_, fun hidx hbit => ?_, fun hidx hbit hmore => ?_, fun hidx hbit htrigger hcount => ?_⟩
  · rw [reactEnd_of_guard hguard, applyReaction_indexFault]
  · rw [hpat hidx] at hbit
    rw [reactEnd_of_mismatch hidx hbit, applyReaction_of_msg_none rfl, merge_endMismatch]
  · rw [hpat hidx] at hbit
    have hnot : ¬ s.cur.val.completesAtEnd s.params.completeTrigger = true := by
      rw [completesAtEnd_iff]
      rintro ⟨hsame, hlast⟩
      obtain hnext | hlt := hmore
      · simp [hsame] at hnext
      · omega
    rw [reactEnd_of_match hidx hbit hnot, applyReaction_quiet]
  · rw [hpat hidx] at hbit
    have hlast : s.cur.val.completesAtEnd s.params.completeTrigger = true :=
      completesAtEnd_iff.mpr ⟨htrigger, hcount.ge⟩
    have hfires : firesVComplete s = true := (firesVComplete_iff hd).mpr (.inr ⟨hphase, hidx, hbit, hlast⟩)
    rw [reactEnd_of_last_match hidx hbit hlast, exec_vComplete_of_fires hfires, applyReaction_completeFrame]
    exact ⟨rfl, rfl⟩

/-- Settles O30: past the END phase every decided bit makes V.COMPLETE fire. -/
theorem vCompleteEmitsAndParks : Obligations.VCompleteEmitsAndParks := by
  intro s d hd hge
  have hfires : firesVComplete s = true := (firesVComplete_iff hd).mpr (.inl (phase_eq_complete hge))
  rw [exec_vComplete_of_fires hfires, applyReaction_completeFrame]
  rfl

end Sys2Proof.Machine
end

section
/-! PROOFS of the statements of 44_sync_fabric.md: the divider (R170) and the three signals (R171 to R174). For each
signal: what it does to a target that waits for it, and that it is lost where it is not raised or nothing waits. -/

namespace Sys2Proof.Machine

/-! ### When no signal is raised -/

theorem sigRaised_of_not_signal {s : State} (h : s.cur.framer.fState ≠ .signal) : s.sigRaised = false :=
  Bool.eq_false_iff.mpr fun hraised => h ((sigRaised_iff s).mp hraised).1

/-! ### "begin sampling" (R172) -/

theorem beginSampling_of_waiting {s : State} (hraised : s.sigRaised = true) (hwaiting : s.cur.rx.rxStarted = false) :
    s.beginSampling =
      { s with nxt := { s.nxt with rx := { s.nxt.rx with rxStarted := true, rxIdx := 0 } } } := by
  simp [beginSampling_eq, hraised, hwaiting]

theorem beginSampling_of_not_raised {s : State} (h : s.sigRaised = false) : s.beginSampling = s := by
  simp [beginSampling_eq, h]

theorem beginSampling_of_started {s : State} (h : s.cur.rx.rxStarted = true) : s.beginSampling = s := by
  simp [beginSampling_eq, h]

/-! ### "abandon wait" (R173) -/

theorem abandonWait_of_parked {s : State} (hraised : s.sigRaised = true) (hparked : s.cur.val.vParked = true) :
    s.abandonWait = { s with nxt := { s.nxt with val := { s.nxt.val with vParked := false } } } := by
  simp [abandonWait_eq, hraised, hparked]

theorem abandonWait_of_not_raised {s : State} (h : s.sigRaised = false) : s.abandonWait = s := by
  simp [abandonWait_eq, h]

theorem abandonWait_of_not_parked {s : State} (h : s.cur.val.vParked = false) : s.abandonWait = s := by
  simp [abandonWait_eq, h]

/-! ### "restart sampling epoch" (R174) -/

theorem restartSampling_of_paused {s : State} (hraised : s.sigRaised = true) (hpaused : s.cur.resetFlag = true) :
    s.restartSampling = { s with nxt := { s.nxt with resetFlag := false, rx := { s.nxt.rx with rxIdx := 0 } } } := by
  simp [restartSampling_eq, hraised, hpaused]

theorem restartSampling_of_not_raised {s : State} (h : s.sigRaised = false) : s.restartSampling = s := by
  simp [restartSampling_eq, h]

theorem restartSampling_of_not_paused {s : State} (h : s.cur.resetFlag = false) : s.restartSampling = s := by
  simp [restartSampling_eq, h]

/-! ### The three together (R171) -/

theorem pulseSignals_of_not_raised {s : State} (h : s.sigRaised = false) : s.pulseSignals = s := by
  rw [State.pulseSignals, beginSampling_of_not_raised h, abandonWait_of_not_raised h, restartSampling_of_not_raised h]

/-! ### What the operations run -/

/-- The Receiver's wait ends by the fabric's signal: the two rows name one write (R126, R172). -/
theorem exec_begin_eq {i : Instr} (hi : i = .sigBegin ∨ i = .rxBegin) (s : State) :
    exec i s = .next s.beginSampling := by
  obtain rfl | rfl := hi <;> rfl

/-- The Receiver's pause ends by the fabric's signal: the two rows name one write (R128, R174). -/
theorem exec_restart_eq {i : Instr} (hi : i = .sigRestart ∨ i = .rxRestart) (s : State) :
    exec i s = .next s.restartSampling := by
  obtain rfl | rfl := hi <;> rfl

theorem exec_sigAbandon (s : State) : exec .sigAbandon s = .next s.abandonWait := rfl

theorem exec_sig (s : State) : exec .sig s = .next s.pulseSignals := rfl

theorem exec_tick (s : State) :
    exec .tick s = .next { s with nxt := { s.nxt with tdiv := if s.tick then 0 else s.cur.tdiv + 1 } } := rfl

/-! ### The statements -/

/-- Settles O16: raised, "begin sampling" ends the wait of a Receiver that has not begun; else it is lost. -/
theorem beginSamplingStartsTheReceiver : Obligations.BeginSamplingStartsTheReceiver := by
  intro s i hi
  rw [exec_begin_eq hi]
  refine ⟨fun hstate hrst hwaiting => ?_, fun hlost => ?_⟩
  · rw [beginSampling_of_waiting ((sigRaised_iff s).mpr ⟨hstate, hrst⟩) hwaiting]
  · obtain hstate | hstarted := hlost
    · rw [beginSampling_of_not_raised (sigRaised_of_not_signal hstate)]
    · rw [beginSampling_of_started hstarted]

/-- Settles O18: raised, "restart sampling epoch" releases a paused Receiver; else it is lost. -/
theorem restartSamplingReleasesTheReceiver : Obligations.RestartSamplingReleasesTheReceiver := by
  intro s i hi
  rw [exec_restart_eq hi]
  refine ⟨fun hstate hrst hpaused => ?_, fun hlost => ?_⟩
  · rw [restartSampling_of_paused ((sigRaised_iff s).mpr ⟨hstate, hrst⟩) hpaused]
  · obtain hstate | hrunning := hlost
    · rw [restartSampling_of_not_raised (sigRaised_of_not_signal hstate)]
    · rw [restartSampling_of_not_paused hrunning]

/-- Settles O36: the divider wraps in a tick cycle, and `tick_iff` says which cycle that is. -/
theorem tickCountsAndWraps : Obligations.TickCountsAndWraps := by
  intro s
  refine ⟨?_, tick_iff s⟩
  simp only [exec_tick, tick_iff]

/-- Settles O37: raised, the signals write what F.SIGNAL's pulse writes; outside SIGNAL none of the three acts. -/
theorem sigRaisesAllThree : Obligations.SigRaisesAllThree := by
  intro s
  rw [exec_sig]
  refine ⟨fun hstate hrst => ?_, fun hstate => ?_⟩
  · rw [pulseSignals_of_sigRaised ((sigRaised_iff s).mpr ⟨hstate, hrst⟩)]
  · rw [pulseSignals_of_not_raised (sigRaised_of_not_signal hstate)]

/-- Settles O38: raised, "abandon wait" releases a parked Validator; else it is lost. -/
theorem sigAbandonUnparksTheValidator : Obligations.SigAbandonUnparksTheValidator := by
  intro s
  rw [exec_sigAbandon]
  refine ⟨fun hstate hrst hparked => ?_, fun hlost => ?_⟩
  · rw [abandonWait_of_parked ((sigRaised_iff s).mpr ⟨hstate, hrst⟩) hparked]
  · obtain hstate | hreacting := hlost
    · rw [abandonWait_of_not_raised (sigRaised_of_not_signal hstate)]
    · rw [abandonWait_of_not_parked hreacting]

end Sys2Proof.Machine
end

section
/-! PROOFS of the statements of 70_reset_and_hazards.md: reset wins over every rule (R215). The wires of a reset cycle
are off by what the rules say turns them on; the rest is what `resetCycle` writes. -/

namespace Sys2Proof.Machine

/-! ### The wires of a cycle with `rst` = 1 -/

theorem accepts_of_rst {s : State} (hrst : s.inp.rst = true) : s.accepts = false := by
  refine Bool.eq_false_iff.mpr fun haccepts => ?_
  obtain ⟨-, -, hclear⟩ := (accepts_iff s).mp haccepts
  simp [hrst] at hclear

theorem sigRaised_of_rst {s : State} (hrst : s.inp.rst = true) : s.sigRaised = false := by
  refine Bool.eq_false_iff.mpr fun hraised => ?_
  obtain ⟨-, hclear⟩ := (sigRaised_iff s).mp hraised
  simp [hrst] at hclear

/-! ### What a reset cycle leaves -/

@[simp] theorem resetCycle_cur (s : State) : s.resetCycle.cur = State.reset.cur := rfl

@[simp] theorem resetCycle_params (s : State) : s.resetCycle.params = s.params := rfl

@[simp] theorem resetCycle_script (s : State) : s.resetCycle.script = s.script.tail := rfl

/-- Of the ports only the two that are registers can show anything (R215; log entry 23). -/
@[simp] theorem resetCycle_out (s : State) :
    s.resetCycle.out = { Outputs.zero with lineOut := s.cur.tx.lineOut, vFault := s.cur.val.vFault } := rfl

/-! ### The statement -/

/-- Settles O46: the step is `resetCycle`, and no wire that accepts or signals is on in such a cycle. -/
theorem resetWinsOverEveryRule : Obligations.ResetWinsOverEveryRule := by
  intro s hrst
  have haccepts : s.accepts = false := accepts_of_rst hrst
  have hraised : s.sigRaised = false := sigRaised_of_rst hrst
  refine ⟨s.resetCycle, step_reset s hrst, ?_⟩
  simp [Outputs.zero, haccepts, hraised]

end Sys2Proof.Machine
end

section
/-! PROOFS of the statements of 30_encoding.md: decode and encode agree in both directions at every place, the frame
of a line decodes to its octets, and words written out. The fields of a word that joins several come first. -/

namespace Sys2Proof

/-! ### The fields of the header, the end octet and the sample group -/

theorem idField_joinHeader (id : BitVec 5) (n : BitVec 3) : idField (joinHeader id n) = id := by
  revert id n; decide

theorem lenField_joinHeader (id : BitVec 5) (n : BitVec 3) : lenField (joinHeader id n) = n := by
  revert id n; decide

/-- An octet whose upper seven bits are those of END is END with its own bit 0. -/
theorem endRx_word_of_fields (w : Octet) (h : w.extractLsb' 1 7 = 0b0100001#7) :
    0b0100001#7 ++ BitVec.ofBool (w.getLsbD 0) = w := by
  revert w; decide

/-- A word below 16 is the group of its four low bits. -/
theorem groupWord_of_fields (w : Octet) (h : w.extractLsb' 4 4 = 0#4) :
    groupWord (w.getLsbD 3) (w.getLsbD 2) (w.getLsbD 1) (w.getLsbD 0) = w := by
  revert w; decide

/-! ### What each place decodes -/

theorem decodeOctet_header (n : BitVec 3) :
    decodeOctet .header (joinHeader Config.idPattern n) = .ok (.header n) := by
  rw [decodeOctet, idField_joinHeader, if_pos rfl, lenField_joinHeader]

theorem decodeOctet_payload {c : Octet} (hc : isTerminator c = false) :
    decodeOctet .payload c = .ok (.payload c) := by
  simp [decodeOctet, hc]

theorem decodeOctetRx_header (id : BitVec 5) (n : BitVec 3) :
    decodeOctetRx .header (joinHeader id n) = .ok (.headerRx id n) := by
  rw [decodeOctetRx, idField_joinHeader, lenField_joinHeader]

theorem decodeOctetRx_endMarker (x : Bool) :
    decodeOctetRx .endMarker (0b0100001#7 ++ BitVec.ofBool x) = .ok (.endRx x) := by
  revert x; decide

/-- A character that is no terminator is a payload character (R70). -/
theorem decodeChar_of_not_terminator {c : Octet} (hc : isTerminator c = false) : decodeChar c = .charOther c := by
  simp only [isTerminator, Bool.or_eq_false_iff, beq_eq_false_iff_ne] at hc
  rw [decodeChar, if_neg hc.1, if_neg hc.2]

/-- The three classes of R70: what a character decodes to is told by whether it is a terminator. -/
theorem decodeChar_cases (c : Octet) :
    (isTerminator c = true ∧ (decodeChar c = .charLf ∧ c = Config.lineFeed
        ∨ decodeChar c = .charCr ∧ c = Config.carriageReturn))
    ∨ (isTerminator c = false ∧ decodeChar c = .charOther c) := by
  by_cases hlf : c = Config.lineFeed
  · exact .inl ⟨by simp [isTerminator, hlf], .inl ⟨if_pos hlf, hlf⟩⟩
  · by_cases hcr : c = Config.carriageReturn
    · exact .inl ⟨by simp [isTerminator, hcr], .inr ⟨by rw [decodeChar, if_neg hlf, if_pos hcr], hcr⟩⟩
    · have hc : isTerminator c = false := by simp [isTerminator, hlf, hcr]
      exact .inr ⟨hc, decodeChar_of_not_terminator hc⟩

/-- The group that the two middle samples select (R130, R131) belongs to the place and has the group's word. -/
theorem encode_decodeGroup (s0 s1 s2 s3 : Bool) :
    (decodeGroup s0 s1 s2 s3).wf = true ∧ placeOf (decodeGroup s0 s1 s2 s3) = some .sampleGroup
    ∧ encode (decodeGroup s0 s1 s2 s3) = [groupWord s0 s1 s2 s3] := by
  cases s1 <;> cases s2 <;> exact ⟨rfl, rfl, rfl⟩

/-! ### Decode and encode -/

/-- Settles O57: a pattern with a place has one word; the place reads its fields back. A state-selected operation has
no place. -/
theorem decodeInvertsEncode : Obligations.DecodeInvertsEncode := by
  intro i p hwf hplace
  have at_place {w : Octet} (q : Place) (hq : placeOf i = some q) (hw : encode i = [w]) (hd : decodeAt q w = .ok i) :
      ∃ w, encode i = [w] ∧ decodeAt p w = .ok i := by
    obtain rfl : q = p := Option.some.inj (hq.symm.trans hplace)
    exact ⟨w, hw, hd⟩
  cases i
  case u => exact at_place (.octet .u) rfl rfl rfl
  case sync => exact at_place (.octet .sync) rfl rfl rfl
  case stx => exact at_place (.octet .stx) rfl rfl rfl
  case header n => exact at_place (.octet .header) rfl rfl (decodeOctet_header n)
  case payload c =>
    exact at_place (.octet .payload) rfl rfl (decodeOctet_payload (by simpa [Instr.wf] using hwf))
  case endMarker => exact at_place (.octet .endMarker) rfl rfl rfl
  case headerRx id n => exact at_place (.octetRx .header) rfl rfl (decodeOctetRx_header id n)
  case endRx x => exact at_place (.octetRx .endMarker) rfl rfl (decodeOctetRx_endMarker x)
  case charLf => exact at_place .inputChar rfl rfl rfl
  case charCr => exact at_place .inputChar rfl rfl rfl
  case charOther c =>
    exact at_place .inputChar rfl rfl
      (congrArg Except.ok (decodeChar_of_not_terminator (by simpa [Instr.wf] using hwf)))
  case groupZero a b => exact at_place .sampleGroup rfl rfl (Machine.decodeAt_groupWord a false false b)
  case groupOne a b => exact at_place .sampleGroup rfl rfl (Machine.decodeAt_groupWord a true true b)
  case groupDrop01 a b => exact at_place .sampleGroup rfl rfl (Machine.decodeAt_groupWord a false true b)
  case groupDrop10 a b => exact at_place .sampleGroup rfl rfl (Machine.decodeAt_groupWord a true false b)
  all_goals nomatch hplace

/-- The send side reads six rows, each with its own test (R62 to R67). -/
theorem encode_of_decodeOctet {p : OctetPlace} {w : Octet} {i : Instr} (h : decodeOctet p w = .ok i) :
    i.wf = true ∧ placeOf i = some (.octet p) ∧ encode i = [w] := by
  cases p <;> simp only [decodeOctet] at h <;> split at h <;> cases h <;> rename_i hw
  case u => exact ⟨rfl, rfl, hw ▸ rfl⟩
  case sync => exact ⟨rfl, rfl, hw ▸ rfl⟩
  case stx => exact ⟨rfl, rfl, hw ▸ rfl⟩
  case header => exact ⟨rfl, rfl, by rw [encode, ← hw, Machine.joinHeader_fields]⟩
  case payload => exact ⟨by simp [Instr.wf, hw], rfl, rfl⟩
  case endMarker => exact ⟨rfl, rfl, hw ▸ rfl⟩

/-- The receive side reads any header, and an end octet whatever its bit 0 (R74). -/
theorem encode_of_decodeOctetRx {p : RxPlace} {w : Octet} {i : Instr} (h : decodeOctetRx p w = .ok i) :
    i.wf = true ∧ placeOf i = some (.octetRx p) ∧ encode i = [w] := by
  cases p
  case header =>
    cases h
    exact ⟨rfl, rfl, by rw [encode, Machine.joinHeader_fields]⟩
  case endMarker =>
    simp only [decodeOctetRx] at h
    split at h <;> cases h
    rename_i hw
    exact ⟨rfl, rfl, by rw [encode, endRx_word_of_fields w hw]⟩

theorem encode_decodeChar (c : Octet) :
    (decodeChar c).wf = true ∧ placeOf (decodeChar c) = some .inputChar ∧ encode (decodeChar c) = [c] := by
  obtain ⟨-, ⟨hi, hc⟩ | ⟨hi, hc⟩⟩ | ⟨hterm, hi⟩ := decodeChar_cases c <;> rw [hi]
  · exact ⟨rfl, rfl, hc ▸ rfl⟩
  · exact ⟨rfl, rfl, hc ▸ rfl⟩
  · exact ⟨by simp [Instr.wf, hterm], rfl, rfl⟩

/-- Settles O58, place by place. -/
theorem encodeInvertsDecode : Obligations.EncodeInvertsDecode := by
  intro p w i h
  cases p
  case octet p => exact encode_of_decodeOctet h
  case octetRx p => exact encode_of_decodeOctetRx h
  case inputChar =>
    cases h
    exact encode_decodeChar w
  case sampleGroup =>
    simp only [decodeAt] at h
    split at h <;> cases h
    rename_i hw
    have hgroup := encode_decodeGroup (w.getLsbD 3) (w.getLsbD 2) (w.getLsbD 1) (w.getLsbD 0)
    rwa [groupWord_of_fields w hw] at hgroup

/-! ### Whole frames -/

/-- R60 written out: the four fixed positions, the characters, END. -/
theorem encodeFrame_eq (cs : List Octet) :
    encodeFrame cs =
      Config.u :: Config.sync :: Config.stx :: joinHeader Config.idPattern (BitVec.ofNat 3 cs.length)
        :: (cs ++ [Config.endMarker]) := by
  have hpayload : (cs.map Instr.payload).flatMap encode = cs := by
    induction cs with
    | nil => rfl
    | cons c cs ih => rw [List.map_cons, List.flatMap_cons, ih]; rfl
  simp only [encodeFrame, frameInstrs, List.flatMap_append, hpayload]
  rfl

theorem decodeBody_payload {cs : List Octet} (hcs : ∀ c ∈ cs, isTerminator c = false) :
    decodeBody cs.length (cs ++ [Config.endMarker]) = .ok (cs.map .payload ++ [.endMarker]) := by
  induction cs with
  | nil => rfl
  | cons c cs ih =>
    obtain ⟨hc, hrest⟩ := List.forall_mem_cons.mp hcs
    simp only [List.length_cons, List.cons_append, decodeBody, decodeOctet_payload hc, ih hrest, List.map_cons]

/-- Settles O59: the header gives the body its length, and the body is read character by character. -/
theorem framesDecodeToTheirOctets : Obligations.FramesDecodeToTheirOctets := by
  intro cs hlen hcs
  have hn : (BitVec.ofNat 3 cs.length).toNat = cs.length := by simp; omega
  rw [encodeFrame_eq]
  refine ⟨by simp, ?_⟩
  have hu : decodeOctet .u Config.u = .ok .u := rfl
  have hsync : decodeOctet .sync Config.sync = .ok .sync := rfl
  have hstx : decodeOctet .stx Config.stx = .ok .stx := rfl
  simp only [decodeFrame, hu, hsync, hstx, decodeOctet_header, lenField_joinHeader, hn, decodeBody_payload hcs]
  rfl

/-- Settles O60: the table reader evaluated on the ten words. -/
theorem writtenWordsDecode : Obligations.WrittenWordsDecode := by
  unfold Obligations.WrittenWordsDecode
  decide

end Sys2Proof
end

section
/-! PROOFS of the other statements of 40_framer.md and of the send side of 30_encoding.md: where F.PUSH stops
(log entry 13), the stall (R97), the six frame-octet rows (R62 to R67) and the three character rows (R91 to R94, R99).
New here: where `frame_byte` is not defined, the position of each row, and what a character row runs. -/

namespace Sys2Proof.Machine

/-! ### Where R95 defines no octet -/

theorem frameByte_of_beyond_end {f : Framer} (h : f.fLen.toNat + 4 < f.fIdx.toNat) : f.frameByte = none := by
  have hplace : f.place = none := by
    rw [place_of_four_le (by omega), if_neg (by omega), if_neg (by omega)]
  simp only [Framer.frameByte, hplace]

/-- `frame_byte` is not defined beyond END, and for an eighth character. -/
theorem frameByte_eq_none_iff (f : Framer) :
    f.frameByte = none ↔
      f.fLen.toNat + 4 < f.fIdx.toNat ∨ (11 ≤ f.fIdx.toNat ∧ f.fIdx.toNat < f.fLen.toNat + 4) := by
  by_cases hbeyond : f.fLen.toNat + 4 < f.fIdx.toNat
  · simp only [frameByte_of_beyond_end hbeyond, hbeyond, true_or]
  · have small {i : BitVec 4} (hi : f.fIdx = i) (hlt : i.toNat < 11) : ¬ 11 ≤ f.fIdx.toNat := by rw [hi]; omega
    obtain h | h | h | h | ⟨j, hj, h⟩ | h := frameIndex_cases (Nat.le_of_not_lt hbeyond)
    · simp [frameByte_u h, hbeyond, small h (by decide)]
    · simp [frameByte_sync h, hbeyond, small h (by decide)]
    · simp [frameByte_stx h, hbeyond, small h (by decide)]
    · simp [frameByte_header h, hbeyond, small h (by decide)]
    · rw [frameByte_payload hj h, Vector.getElem?_eq_none_iff]
      omega
    · simp only [frameByte_endMarker h, reduceCtorEq, false_iff]
      omega

theorem exec_fPush_of_frameByte_none {s : State} (h : s.pushes = true) (hv : s.cur.framer.frameByte = none) :
    exec .fPush s = .fault .frameIndex := by
  show execFPush s = _
  simp only [execFPush, firesFPush, h, hv, if_true]

theorem exec_fPush_of_not_pushes {s : State} (h : s.pushes = false) : exec .fPush s = .next s :=
  if_neg (Bool.eq_false_iff.mp h)

theorem exec_fStall (s : State) : exec .fStall s = .next s := rfl

/-! ### The position of each row of R95 -/

section
variable {f : Framer}

theorem place_u (h : f.fIdx = 0) : f.place = some .u := if_pos h

theorem place_sync (h : f.fIdx = 1) : f.place = some .sync := by simp [Framer.place, h]

theorem place_stx (h : f.fIdx = 2) : f.place = some .stx := by simp [Framer.place, h]

theorem place_header (h : f.fIdx = 3) : f.place = some .header := by simp [Framer.place, h]

theorem place_payload (hge : 4 ≤ f.fIdx.toNat) (hlt : f.fIdx.toNat < 4 + f.fLen.toNat) :
    f.place = some .payload := by
  rw [place_of_four_le hge, if_pos hlt]

theorem place_endMarker (h : f.fIdx.toNat = 4 + f.fLen.toNat) : f.place = some .endMarker := by
  rw [place_of_four_le (by omega), if_neg (by omega), if_pos h]

end

/-! ### What a frame-octet row that fires runs (log entry 7) -/

section
variable {s : State}

theorem exec_u_of_place (h : s.pushes = true) (hp : s.cur.framer.place = some .u) :
    exec .u s = .next (s.emitOctet 85) := if_pos (by simp [firesU, h, hp])

theorem exec_sync_of_place (h : s.pushes = true) (hp : s.cur.framer.place = some .sync) :
    exec .sync s = .next (s.emitOctet 65) := if_pos (by simp [firesSync, h, hp])

theorem exec_stx_of_place (h : s.pushes = true) (hp : s.cur.framer.place = some .stx) :
    exec .stx s = .next (s.emitOctet 66) := if_pos (by simp [firesStx, h, hp])

theorem exec_header_of_place {n : BitVec 3} (h : s.pushes = true) (hp : s.cur.framer.place = some .header)
    (hn : s.cur.framer.fLen.toNat = n.toNat) :
    exec (.header n) s = .next (s.emitOctet (joinHeader Config.idPattern n)) :=
  if_pos (by simp [firesHeader, h, hp, hn])

theorem exec_payload_of_place {c : Octet} (h : s.pushes = true) (hp : s.cur.framer.place = some .payload)
    (hc : s.cur.framer.frameByte = some c) : exec (.payload c) s = .next (s.emitOctet c) :=
  if_pos (by simp [firesPayload, h, hp, hc])

theorem exec_endMarker_of_place (h : s.pushes = true) (hp : s.cur.framer.place = some .endMarker) :
    exec .endMarker s = .next (s.emitOctet 67) := if_pos (by simp [firesEndMarker, h, hp])

/-- Before END the push steps on to the next index (R96). -/
theorem emitOctet_of_not_atEnd (v : Octet) (h : s.cur.framer.fIdx.toNat < s.cur.framer.fLen.toNat + 4) :
    s.emitOctet v =
      { s with
        push := some v
        nxt := { s.nxt with
          q := (if s.pop then s.cur.q.tail else s.cur.q) ++ [v]
          framer := { s.nxt.framer with fIdx := s.cur.framer.fIdx + 1 } } } := by
  rw [emitOctet_eq, if_neg]
  rw [atEnd_iff]
  omega

/-- With END the frame has been pushed (R96). -/
theorem emitOctet_of_atEnd (v : Octet) (h : s.cur.framer.fIdx.toNat = s.cur.framer.fLen.toNat + 4) :
    s.emitOctet v =
      { s with
        push := some v
        nxt := { s.nxt with
          q := (if s.pop then s.cur.q.tail else s.cur.q) ++ [v]
          framer := { s.nxt.framer with fState := .signal } } } := by
  rw [emitOctet_eq, if_pos ((atEnd_iff _).mpr h)]

end

/-- R65 as R95 writes it. -/
theorem joinHeader_idPattern (n : BitVec 3) : joinHeader Config.idPattern n = 0xD0 ||| n.setWidth 8 := by
  revert n; decide

/-! ### What a character row runs -/

section
variable {s : State} {i : Instr}

theorem exec_terminator_of_ready (hi : i = .charLf ∨ i = .charCr) (h : s.charReady = true) :
    exec i s = .next s.takeTerminator := by
  obtain rfl | rfl := hi <;> exact if_pos h

theorem exec_charOther_of_ready (c : Octet) (h : s.charReady = true) :
    exec (.charOther c) s = .next (s.takeChar c) := if_pos h

theorem exec_character_of_not_ready (hi : i = .charLf ∨ i = .charCr ∨ ∃ c, i = .charOther c)
    (h : s.charReady = false) : exec i s = .next s := by
  obtain rfl | rfl | ⟨c, rfl⟩ := hi <;> exact if_neg (Bool.eq_false_iff.mp h)

theorem takeTerminator_of_fits (h : s.cur.framer.fLen.toNat ≤ 7) : s.takeTerminator = s.startPush := if_pos h

theorem takeTerminator_of_oversize (h : s.cur.framer.fLen = 8) : s.takeTerminator = s.rejectLine := by
  rw [State.takeTerminator, if_neg (by rw [h]; decide), if_pos h]

theorem takeChar_of_room (c : Octet) (h : s.cur.framer.fLen.toNat ≤ 6) : s.takeChar c = s.storeChar c := if_pos h

theorem takeChar_of_full (c : Octet) (h : 7 ≤ s.cur.framer.fLen.toNat) : s.takeChar c = s.dropChar :=
  if_neg (by omega)

end

theorem merge_oversizeLine (e : Events) :
    e.merge { Events.none with oversizeLine := true } = { e with oversizeLine := true } := by
  simp [Events.merge, Events.none]

/-! ### The statements -/

/-- Settles O5: F.PUSH fires, and stops exactly where `frame_byte` is not defined. -/
theorem fPushStopsOnlyBeyondTheFrame : Obligations.FPushStopsOnlyBeyondTheFrame := by
  intro s hstate hroom
  have hpushes : s.pushes = true := (pushes_iff s).mpr ⟨hstate, hroom⟩
  rw [← frameByte_eq_none_iff]
  cases hv : s.cur.framer.frameByte with
  | none => simp only [exec_fPush_of_frameByte_none hpushes hv]
  | some v => simp [exec_fPush_of_frameByte hpushes hv]

/-- Settles O6: with the queue full the Framer does not push. -/
theorem fStallChangesNothing : Obligations.FStallChangesNothing := by
  intro s hstate hfull
  have hpushes : s.pushes = false := Bool.eq_false_iff.mpr fun h => ((pushes_iff s).mp h).2 hfull
  exact ⟨exec_fStall s, exec_fPush_of_not_pushes hpushes⟩

/-- Settles O8: at its position each row fires and pushes its octet. -/
theorem frameOctetsArePushedAtTheirPlaces : Obligations.FrameOctetsArePushedAtTheirPlaces := by
  intro s hstate hroom hlen
  have hpushes : s.pushes = true := (pushes_iff s).mpr ⟨hstate, hroom⟩
  have before {i : BitVec 4} (h : s.cur.framer.fIdx = i) (hi : i.toNat < 4) :
      s.cur.framer.fIdx.toNat < s.cur.framer.fLen.toNat + 4 := by rw [h]; omega
  refine ⟨fun h => ?_, fun h => ?_, fun h => ?_, fun n h hn => ?_, fun c j h hj hc => ?_, fun h => ?_⟩
  · rw [exec_u_of_place hpushes (place_u h), emitOctet_of_not_atEnd _ (before h (by decide)), h]
    rfl
  · rw [exec_sync_of_place hpushes (place_sync h), emitOctet_of_not_atEnd _ (before h (by decide)), h]
    rfl
  · rw [exec_stx_of_place hpushes (place_stx h), emitOctet_of_not_atEnd _ (before h (by decide)), h]
    rfl
  · rw [exec_header_of_place hpushes (place_header h) hn, emitOctet_of_not_atEnd _ (before h (by decide)), h,
      joinHeader_idPattern]
    rfl
  · have hplace : s.cur.framer.place = some .payload := place_payload (by omega) (by omega)
    rw [exec_payload_of_place hpushes hplace ((frameByte_payload hj h).trans hc),
      emitOctet_of_not_atEnd _ (by omega)]
  · rw [exec_endMarker_of_place hpushes (place_endMarker h), emitOctet_of_atEnd _ (by omega)]

/-- Settles O9: with `char_ready` = 1 a row takes its character, and `f_len` decides what that is. -/
theorem inputCharactersDriveTheFramer : Obligations.InputCharactersDriveTheFramer := by
  intro s i c hi _
  refine ⟨fun hstate hrst => ?_, fun hwaiting => ?_⟩
  · have hready : s.charReady = true := (charReady_iff s).mpr ⟨hstate, hrst⟩
    rw [exec_terminator_of_ready hi hready, exec_charOther_of_ready c hready]
    refine ⟨fun hlen => ?_, fun hlen => ?_, fun hlen => ?_, fun hlen => ?_⟩
    · rw [takeTerminator_of_fits hlen, startPush_eq]
    · rw [takeTerminator_of_oversize hlen, rejectLine_eq, merge_oversizeLine]
    · rw [takeChar_of_room c hlen, storeChar_eq]
    · rw [takeChar_of_full c hlen, dropChar_eq]
  · have hready : s.charReady = false := by
      refine Bool.eq_false_iff.mpr fun h => ?_
      obtain ⟨haccum, hclear⟩ := (charReady_iff s).mp h
      obtain hstate | hrst := hwaiting
      · exact hstate haccum
      · simp [hrst] at hclear
    have hrow : i = .charLf ∨ i = .charCr ∨ ∃ c, i = .charOther c := hi.imp_right .inl
    exact ⟨exec_character_of_not_ready hrow hready, exec_character_of_not_ready (.inr (.inr ⟨c, rfl⟩)) hready⟩

end Sys2Proof.Machine
end

section
/-! PROOFS of the other statements of 42_receiver.md and of the sample groups of 30_encoding.md: a Receiver that waits
(R126, R127), the decision at the end of a group (R130, R131), all sixteen groups (R132), and when the Validator
reacts (R140). -/

namespace Sys2Proof.Machine

/-! ### When a Receiver samples and decides -/

theorem rxRunning_of_waiting {s : State} (h : s.cur.rx.rxStarted = false ∨ s.cur.resetFlag = true) :
    s.rxRunning = false := by
  obtain h | h := h <;> simp [State.rxRunning, h]

theorem rxSamples_iff (s : State) :
    s.rxSamples = true ↔ s.tick = true ∧ s.cur.rx.rxStarted = true ∧ s.cur.resetFlag = false :=
  firesRxSample_iff s

theorem rxSamples_of_not_running {s : State} (h : s.rxRunning = false) : s.rxSamples = false := by
  simp [State.rxSamples, h]

theorem groupEnds_of_not_running {s : State} (h : s.rxRunning = false) : s.groupEnds = false := by
  simp [State.groupEnds, rxSamples_of_not_running h]

theorem groupEnds_iff (s : State) :
    s.groupEnds = true ↔
      s.cur.tdiv = s.params.tCycles - 1 ∧ s.cur.rx.rxStarted = true ∧ s.cur.resetFlag = false
      ∧ s.cur.rx.rxIdx = 3 := by
  simp [State.groupEnds, rxSamples_iff, tick_iff, and_assoc]

theorem published_eq_some_iff (s : State) (d : Bool) :
    s.published = some d ↔ s.groupEnds = true ∧ s.cur.rx.rxS1 = d ∧ s.cur.rx.rxS2 = d := by
  simp only [State.published, Option.ite_none_right_eq_some, Bool.and_eq_true, beq_iff_eq, Option.some.injEq]
  constructor
  · rintro ⟨⟨hends, hagree⟩, hd⟩
    exact ⟨hends, hd, hagree ▸ hd⟩
  · rintro ⟨hends, hs1, hs2⟩
    exact ⟨⟨hends, hs1.trans hs2.symm⟩, hs1⟩

theorem published_eq_none_of_not_groupEnds {s : State} (h : s.groupEnds = false) : s.published = none := by
  simp [State.published, h]

theorem published_eq_none_of_disagree {s : State} (h : s.cur.rx.rxS1 ≠ s.cur.rx.rxS2) : s.published = none := by
  simp [State.published, h]

/-- R140. -/
theorem decided_eq_some_iff (s : State) (d : Bool) :
    s.decided = some d ↔ s.cur.val.vParked = false ∧ s.cur.val.vFault = false ∧ s.published = some d := by
  simp [State.decided, and_assoc]

/-! ### What the operations run -/

theorem exec_rxPause (s : State) : exec .rxPause s = .next s := rfl

theorem exec_rxSample_of_not_fires {s : State} (h : firesRxSample s = false) : exec .rxSample s = .next s :=
  if_neg (Bool.eq_false_iff.mp h)

theorem exec_rxDecideAgree_of_fires {s : State} (h : firesRxDecideAgree s = true) :
    exec .rxDecideAgree s = .next (s.publish s.cur.rx.rxS1) := if_pos h

theorem exec_rxDecideAgree_of_not_fires {s : State} (h : firesRxDecideAgree s = false) :
    exec .rxDecideAgree s = .next s := if_neg (Bool.eq_false_iff.mp h)

theorem exec_rxDecideDrop_of_fires {s : State} (h : firesRxDecideDrop s = true) :
    exec .rxDecideDrop s = .next (s.raise { Events.none with ambiguousSample := true }) := if_pos h

theorem exec_rxDecideDrop_of_not_fires {s : State} (h : firesRxDecideDrop s = false) :
    exec .rxDecideDrop s = .next s := if_neg (Bool.eq_false_iff.mp h)

theorem firesRxDecideAgree_of_not_groupEnds {s : State} (h : s.groupEnds = false) : firesRxDecideAgree s = false := by
  simp [firesRxDecideAgree, h]

theorem firesRxDecideDrop_of_not_groupEnds {s : State} (h : s.groupEnds = false) : firesRxDecideDrop s = false := by
  simp [firesRxDecideDrop, h]

theorem merge_ambiguousSample (e : Events) :
    e.merge { Events.none with ambiguousSample := true } = { e with ambiguousSample := true } := by
  simp [Events.merge, Events.none]

/-! ### A group from its first sample -/

/-- Four samples from `rx_idx` = 0: the middle two are stored, and decide if they agree (R129 to R131). -/
theorem takeAll_four {r : Receiver} (hidx : r.rxIdx = 0) (s0 s1 s2 s3 : Bool) :
    r.takeAll [s0, s1, s2, s3] =
      ({ r with rxIdx := 0, rxS1 := s1, rxS2 := s2, dbit := if s1 = s2 then s1 else r.dbit },
        { Events.none with ambiguousSample := s1 != s2 }) := by
  obtain ⟨started, idx, old1, old2, d⟩ := r
  obtain rfl : idx = 0 := hidx
  by_cases h : s1 = s2 <;>
    simp [Receiver.takeAll, Receiver.take, Receiver.store, Receiver.drops, Events.merge, Events.none, h]

theorem takeGroup_of_running {s : State} (hrun : s.rxRunning = true) (hidx : s.cur.rx.rxIdx = 0) (s0 s1 s2 s3 : Bool) :
    s.takeGroup s0 s1 s2 s3 =
      { s with
        nxt := { s.nxt with rx :=
          { s.cur.rx with rxIdx := 0, rxS1 := s1, rxS2 := s2, dbit := if s1 = s2 then s1 else s.cur.rx.dbit } }
        events := s.events.merge { Events.none with ambiguousSample := s1 != s2 } } := by
  have hdrop : [s0, s1, s2, s3].drop s.cur.rx.rxIdx.toNat = [s0, s1, s2, s3] := by rw [hidx]; rfl
  rw [takeGroup_eq, if_pos hrun, hdrop, takeAll_four hidx]

theorem takeGroup_of_not_running {s : State} (hrun : s.rxRunning = false) (s0 s1 s2 s3 : Bool) :
    s.takeGroup s0 s1 s2 s3 = s := if_neg (Bool.eq_false_iff.mp hrun)

theorem exec_groupZero (x y : Bool) (s : State) :
    exec (.groupZero x y) s = .next (s.takeGroup x false false y) := rfl

theorem exec_groupOne (x y : Bool) (s : State) :
    exec (.groupOne x y) s = .next (s.takeGroup x true true y) := rfl

theorem exec_groupDrop01 (x y : Bool) (s : State) :
    exec (.groupDrop01 x y) s = .next (s.takeGroup x false true y) := rfl

theorem exec_groupDrop10 (x y : Bool) (s : State) :
    exec (.groupDrop10 x y) s = .next (s.takeGroup x true false y) := rfl

/-! ### The statements -/

/-- Settles O17: a Receiver that is not running does not sample, and no group ends. -/
theorem waitingReceiverTakesNoSample : Obligations.WaitingReceiverTakesNoSample := by
  intro s hwaiting
  have hrun : s.rxRunning = false := rxRunning_of_waiting hwaiting
  have hends : s.groupEnds = false := groupEnds_of_not_running hrun
  exact ⟨exec_rxPause s, exec_rxSample_of_not_fires (rxSamples_of_not_running hrun),
    exec_rxDecideAgree_of_not_fires (firesRxDecideAgree_of_not_groupEnds hends),
    exec_rxDecideDrop_of_not_fires (firesRxDecideDrop_of_not_groupEnds hends),
    published_eq_none_of_not_groupEnds hends⟩

/-- Settles O20: at the end of a group one of the two decisions fires, by whether the middle samples agree. -/
theorem groupEndPublishesOrDrops : Obligations.GroupEndPublishesOrDrops := by
  intro s htdiv hstarted hflag hidx
  have hends : s.groupEnds = true := (groupEnds_iff s).mpr ⟨htdiv, hstarted, hflag, hidx⟩
  refine ⟨fun hagree => ⟨?_, (published_eq_some_iff s _).mpr ⟨hends, rfl, hagree.symm⟩⟩,
    fun hdiffer => ⟨?_, published_eq_none_of_disagree hdiffer⟩⟩
  · have hfires : firesRxDecideAgree s = true := by simp [firesRxDecideAgree, hends, hagree]
    rw [exec_rxDecideAgree_of_fires hfires, State.publish, updRx_eq]
  · have hfires : firesRxDecideDrop s = true := by simp [firesRxDecideDrop, hends, hdiffer]
    rw [exec_rxDecideDrop_of_fires hfires, State.raise, merge_ambiguousSample]

/-- Settles O21: the four rows are one transition, with the middle samples of the row. -/
theorem groupsDecideByTheMiddleSamples : Obligations.GroupsDecideByTheMiddleSamples := by
  intro s x y
  rw [exec_groupZero, exec_groupOne, exec_groupDrop01, exec_groupDrop10]
  refine ⟨fun hstarted hflag hidx => ?_, fun hwaiting => ?_⟩
  · have hrun : s.rxRunning = true := (rxRunning_iff s).mpr ⟨hstarted, hflag⟩
    have no_event : ({ Events.none with ambiguousSample := false } : Events) = Events.none := rfl
    simp [takeGroup_of_running hrun hidx, hstarted, no_event, merge_ambiguousSample]
  · simp only [takeGroup_of_not_running (rxRunning_of_waiting hwaiting), and_self]

/-- Settles O23. -/
theorem decidedExactlyWhenPublishedAndAwake : Obligations.DecidedExactlyWhenPublishedAndAwake := by
  intro s d
  rw [decided_eq_some_iff, published_eq_some_iff, groupEnds_iff]
  simp only [and_assoc]

end Sys2Proof.Machine
end

section
/-! PROOFS of the statements of 43_validator.md about runs of bits: the message as sums (R150), the two receive octets
(R74, R75; log entry 8) and the round trip of a whole frame. A run of captured bits is `setBits`, one `setBit` after
another; a run of reactions is cut by `feed_append` where the phase changes. -/

namespace Sys2Proof.Machine

/-! ### A bit vector by its bits, index 0 the most significant (R49) -/

/-- `int_be`: the value of a bit vector is the sum of its bits, index 0 first. -/
theorem toNat_eq_sum_getMsbD : ∀ {w : Nat} (a : BitVec w),
    a.toNat = ∑ i ∈ Finset.range w, (a.getMsbD i).toNat * 2 ^ (w - 1 - i)
  | 0, a => by simp [BitVec.eq_nil a]
  | w + 1, a => by
    have hhead : a.toNat = a.msb.toNat * 2 ^ w + (a.setWidth w).toNat := by
      conv_lhs => rw [← BitVec.cons_msb_setWidth a, BitVec.toNat_cons', Nat.shiftLeft_eq]
    have htail (i : Nat) : (a.setWidth w).getMsbD i = a.getMsbD (i + 1) := by
      rw [BitVec.getMsbD_setWidth, decide_eq_true (by omega), Bool.true_and]
      congr 1
      omega
    have hpow (i : Nat) : w - 1 - i = w + 1 - 1 - (i + 1) := by omega
    rw [hhead, toNat_eq_sum_getMsbD (a.setWidth w), Finset.sum_range_succ', add_comm]
    simp only [htail, hpow, Nat.sub_zero, Nat.add_sub_cancel, BitVec.msb]

/-- Octet j of 56 bits, bit k of it. -/
theorem getMsbD_extractLsb'_octet (a : BitVec 56) {j k : Nat} (hj : j ≤ 6) (hk : k < 8) :
    (a.extractLsb' (48 - 8 * j) 8).getMsbD k = a.getMsbD (8 * j + k) := by
  have hidx : 56 - (48 - 8 * j + 8 - k) = 8 * j + k := by omega
  rw [BitVec.getMsbD_extractLsb', decide_eq_true hk, decide_eq_true (by omega), hidx, Bool.true_and, Bool.true_and]

/-- Bits written one after the other from index `i` on (R49). -/
def setBits (w : Nat) : BitVec w → Nat → List Bool → BitVec w
  | a, _, [] => a
  | a, i, d :: ds => setBits w (setBit w a i d) (i + 1) ds

/-- The run of bits is where it was written, every other bit is kept. -/
theorem getMsbD_setBits (w : Nat) (ds : List Bool) (a : BitVec w) (i j : Nat) (h : i + ds.length ≤ w) :
    (setBits w a i ds).getMsbD j = if i ≤ j then (ds[j - i]?).getD (a.getMsbD j) else a.getMsbD j := by
  induction ds generalizing a i with
  | nil => simp [setBits]
  | cons d ds ih =>
    rw [List.length_cons] at h
    rw [setBits, ih _ _ (by omega), getMsbD_setBit w a i j d (by omega)]
    obtain hlt | rfl | hgt := Nat.lt_trichotomy j i
    · simp [Nat.not_le.mpr hlt, hlt.ne, show ¬ i + 1 ≤ j by omega]
    · simp
    · obtain ⟨m, rfl⟩ := Nat.exists_eq_add_of_lt hgt
      simp [show i + 1 ≤ i + m + 1 by omega, show i ≤ i + m + 1 by omega, show i + m + 1 ≠ i by omega,
        show i + m + 1 - (i + 1) = m by omega, show i + m + 1 - i = m + 1 by omega]

/-- All bits written: nothing of the old buffer is left. -/
theorem setBits_all (w : Nat) (a x : BitVec w) : setBits w a 0 ((List.range w).map x.getMsbD) = x := by
  refine BitVec.eq_of_getMsbD_eq fun j hj => ?_
  rw [getMsbD_setBits _ _ _ _ _ (by simp)]
  simp [hj]

/-! ### The bits of the octets -/

theorem octetBits_joinHeader (id : BitVec 5) (n : BitVec 3) :
    octetBits (joinHeader id n) = (List.range 5).map id.getMsbD ++ (List.range 3).map n.getMsbD := by
  revert id n; decide

theorem octetBits_endRx (x : Bool) :
    octetBits (0b0100001#7 ++ BitVec.ofBool x) = [false, true, false, false, false, false, true, x] := by
  revert x; decide

/-- Bit k of octet j of a run of octets. -/
theorem getElem?_flatMap_octetBits (cs : List Octet) (j : Nat) {k : Nat} (hk : k < 8) :
    (cs.flatMap octetBits)[8 * j + k]? = cs[j]?.map (·.getMsbD k) := by
  have hlen (c : Octet) : (octetBits c).length = 8 := by simp [octetBits]
  induction cs generalizing j with
  | nil => simp
  | cons c cs ih =>
    rw [List.flatMap_cons]
    cases j with
    | zero =>
      rw [List.getElem?_append_left (by rw [hlen]; omega)]
      simp [octetBits, pat, hk]
    | succ j =>
      rw [List.getElem?_append_right (by rw [hlen]; omega), hlen, show 8 * (j + 1) + k - 8 = 8 * j + k by omega, ih,
        List.getElem?_cons_succ]

theorem length_flatMap_octetBits (cs : List Octet) : (cs.flatMap octetBits).length = 8 * cs.length := by
  have hlen (c : Octet) : (octetBits c).length = 8 := by simp [octetBits]
  simp [List.length_flatMap, hlen, Nat.mul_comm]

/-! ### The reaction of a Validator that is neither parked nor faulted (R140, R141) -/

/-- Neither parked nor faulted: a bit is reacted to (R140). -/
abbrev Validator.awake (v : Validator) : Prop := v.vParked = false ∧ v.vFault = false

section
variable {t : CompleteTrigger} {v : Validator} {d : Bool}

theorem react_of_sync (hv : v.awake) (hp : v.phase = .sync) : v.react t d = v.reactSync d := by
  simp [Validator.react, hv.1, hv.2, hp]

theorem react_of_stx (hv : v.awake) (hp : v.phase = .stx) : v.react t d = v.reactStx d := by
  simp [Validator.react, hv.1, hv.2, hp]

theorem react_of_id (hv : v.awake) (hp : v.phase = .id) : v.react t d = v.reactId d := by
  simp [Validator.react, hv.1, hv.2, hp]

theorem react_of_length (hv : v.awake) (hp : v.phase = .length) : v.react t d = v.reactLength d := by
  simp [Validator.react, hv.1, hv.2, hp]

theorem react_of_payload (hv : v.awake) (hp : v.phase = .payload) : v.react t d = v.reactPayload d := by
  simp [Validator.react, hv.1, hv.2, hp]

theorem react_of_endMarker (hv : v.awake) (hp : v.phase = .endMarker) : v.react t d = v.reactEnd t d := by
  simp [Validator.react, hv.1, hv.2, hp]

theorem react_of_complete (hv : v.awake) (hp : v.phase = .complete) : v.react t d = v.completeFrame := by
  simp [Validator.react, hv.1, hv.2, hp]

end

/-! ### Runs of reactions -/

section
variable {t : CompleteTrigger}

theorem events_merge_assoc (e x y : Events) : (e.merge x).merge y = e.merge (x.merge y) := by
  simp [Events.merge, Bool.or_assoc]

/-- A run of bits cut in two: the second part is fed to what the first leaves. -/
theorem feed_append (v : Validator) (xs ys : List Bool) :
    v.feed t (xs ++ ys) =
      { val := ((v.feed t xs).val.feed t ys).val
        msg := ((v.feed t xs).val.feed t ys).msg <|> (v.feed t xs).msg
        events := (v.feed t xs).events.merge ((v.feed t xs).val.feed t ys).events } := by
  induction xs generalizing v with
  | nil => simp [Validator.feed, Reaction.quiet]
  | cons d xs ih =>
    simp only [List.cons_append, Validator.feed, ih, events_merge_assoc]
    cases (((v.react t d).val.feed t xs).val.feed t ys).msg <;> rfl

theorem feed_append_of_quiet {v v' : Validator} {xs : List Bool} (h : v.feed t xs = Reaction.quiet v')
    (ys : List Bool) : v.feed t (xs ++ ys) = v'.feed t ys := by
  rw [feed_append, h]
  simp [Reaction.quiet]

theorem feed_cons_of_quiet {v v' : Validator} {d : Bool} (h : v.react t d = Reaction.quiet v') (ds : List Bool) :
    v.feed t (d :: ds) = v'.feed t ds :=
  feed_append_of_quiet (xs := [d]) ((feed_single t v d).trans h) ds

/-- A run of ID bits is stored from `count3` on (R144). -/
theorem feed_id (ds : List Bool) (v : Validator) (i : Nat) (hv : v.awake) (hidx : v.count3.toNat = i)
    (hcount : v.count.toNat = 16 + i) (hroom : i + ds.length ≤ 5) :
    v.feed t ds =
      Reaction.quiet
        { v with
          idBuf := setBits 5 v.idBuf i ds
          count3 := v.count3 + BitVec.ofNat 3 ds.length
          count := v.count + BitVec.ofNat 7 ds.length } := by
  induction ds generalizing v i with
  | nil => simp [Validator.feed, setBits]
  | cons d ds ih =>
    rw [List.length_cons] at hroom
    have hreact := (react_of_id (t := t) (d := d) hv (phase_eq_id (by omega) (by omega))).trans
      (reactId_of_room (by omega))
    rw [feed_cons_of_quiet hreact, ih _ (i + 1)]
    · simp only [hidx, setBits, List.length_cons, BitVec.ofNat_add, BitVec.ofNat_eq_ofNat, BitVec.add_assoc,
        BitVec.add_comm 1#3, BitVec.add_comm 1#7]
    · exact hv
    · bv_omega
    · bv_omega
    · omega

/-- The three length bits, and with the third `payload_bits` (R145). -/
theorem feed_length (v : Validator) (hv : v.awake) (hcount : v.count = 21) (hcount4 : v.count4 = 0) (a b c : Bool) :
    v.feed t [a, b, c] =
      Reaction.quiet
        { v with
          nBuf := setBits 3 v.nBuf 0 [a, b, c]
          count4 := 3
          count := 24
          payloadBits := (setBits 3 v.nBuf 0 [a, b, c]).setWidth 6 <<< 3 } := by
  have reacts (v : Validator) (d : Bool) (hv : v.awake) (hge : 21 ≤ v.count.toNat) (hle : v.count.toNat ≤ 23)
      (hidx : v.count4.toNat ≤ 2) :=
    (react_of_length (t := t) (d := d) hv (phase_eq_length hge hle)).trans (reactLength_of_room hidx)
  rw [feed_cons_of_quiet (reacts v a hv (by simp [hcount]) (by simp [hcount]) (by simp [hcount4])),
    feed_cons_of_quiet (reacts _ b ?_ ?_ ?_ ?_), feed_cons_of_quiet (reacts _ c ?_ ?_ ?_ ?_)]
  · simp [hcount, hcount4, Validator.feed, setBits]
  all_goals simp [hv.1, hv.2, hcount, hcount4]

/-- A run of payload bits is stored from `count5` on (R146). -/
theorem feed_payload (ds : List Bool) (v : Validator) (i : Nat) (hv : v.awake) (hidx : v.count5.toNat = i)
    (hcount : v.count.toNat = 24 + i) (hroom : i + ds.length ≤ v.payloadBits.toNat)
    (hmax : v.payloadBits.toNat ≤ 56) :
    v.feed t ds =
      Reaction.quiet
        { v with
          messageBuf := setBits 56 v.messageBuf i ds
          count5 := v.count5 + BitVec.ofNat 6 ds.length
          count := v.count + BitVec.ofNat 7 ds.length } := by
  induction ds generalizing v i with
  | nil => simp [Validator.feed, setBits]
  | cons d ds ih =>
    rw [List.length_cons] at hroom
    have hreact := (react_of_payload (t := t) (d := d) hv (phase_eq_payload (by omega) (by omega))).trans
      (reactPayload_of_room (by omega))
    rw [feed_cons_of_quiet hreact, ih _ (i + 1)]
    · simp only [hidx, setBits, List.length_cons, BitVec.ofNat_add, BitVec.ofNat_eq_ofNat, BitVec.add_assoc,
        BitVec.add_comm 1#6, BitVec.add_comm 1#7]
    · exact hv
    · bv_omega
    · bv_omega
    · show i + 1 + ds.length ≤ v.payloadBits.toNat
      omega
    · exact hmax

/-- The header octet from its first bit (R144, R145): both fields stored, `payload_bits` = 8 n. -/
theorem feed_header (v : Validator) (hv : v.awake) (hcount : v.count = 16) (hcount3 : v.count3 = 0)
    (hcount4 : v.count4 = 0) (id : BitVec 5) (n : BitVec 3) :
    v.feed t (octetBits (joinHeader id n)) =
      Reaction.quiet
        { v with
          count := 24, count3 := 5, count4 := 3, idBuf := id, nBuf := n
          payloadBits := BitVec.ofNat 6 (8 * n.toNat) } := by
  have hpayload : n.setWidth 6 <<< 3 = BitVec.ofNat 6 (8 * n.toNat) := by
    rw [← payloadBits_toNat, BitVec.ofNat_toNat, BitVec.setWidth_eq]
  have hidBuf : setBits 5 v.idBuf 0 ((List.range 5).map id.getMsbD) = id := setBits_all 5 v.idBuf id
  have hnBuf : setBits 3 v.nBuf 0 [n.getMsbD 0, n.getMsbD 1, n.getMsbD 2] = n := setBits_all 3 v.nBuf n
  have hid := feed_id (t := t) ((List.range 5).map id.getMsbD) v 0 hv (by simp [hcount3]) (by simp [hcount]) (by simp)
  have hlength := feed_length (t := t) { v with idBuf := id, count3 := 5, count := 21 } hv rfl hcount4
    (n.getMsbD 0) (n.getMsbD 1) (n.getMsbD 2)
  simp only [hidBuf, hcount3, hcount, List.length_map, List.length_range] at hid
  rw [octetBits_joinHeader, feed_append_of_quiet hid]
  simp only [hnBuf, hpayload] at hlength
  exact hlength

/-- The matching bit of END at `count6` = k is bit k of the received octet, whatever its bit 0 (R67). -/
theorem endRx_bits_drop (x : Bool) {k : Nat} (hk : k ≤ 6) :
    (octetBits (0b0100001#7 ++ BitVec.ofBool x)).drop k =
      pat Config.endMarker k :: (octetBits (0b0100001#7 ++ BitVec.ofBool x)).drop (k + 1) := by
  revert x
  interval_cases k <;> decide

/-- The END phase from its k-th bit (R147 to R149): six matches, then COMPLETE with the seventh bit or after it. -/
theorem feed_end (x : Bool) (m : Nat) (v : Validator) (hv : v.awake) (hidx : v.count6.toNat + m = 6)
    (hcount : v.count.toNat = 24 + v.payloadBits.toNat + v.count6.toNat) :
    v.feed t ((octetBits (0b0100001#7 ++ BitVec.ofBool x)).drop v.count6.toNat) = v.completeFrame := by
  induction m generalizing v with
  | zero =>
    have hlast : (octetBits (0b0100001#7 ++ BitVec.ofBool x)).drop v.count6.toNat =
        [pat Config.endMarker v.count6.toNat, x] := by
      rw [show v.count6.toNat = 6 by omega]; revert x; decide
    rw [hlast]
    have hreact := react_of_endMarker (t := t) (d := pat Config.endMarker v.count6.toNat) hv
      (phase_eq_endMarker (by omega) (by omega))
    cases t with
    | sameBit =>
      have hcompletes : v.completesAtEnd .sameBit = true := completesAtEnd_iff.mpr ⟨rfl, by omega⟩
      exact feed_after_complete _ v _ (hreact.trans (reactEnd_of_last_match (by omega) rfl hcompletes)) x
    | nextBit =>
      have hmore : ¬ v.completesAtEnd .nextBit = true := by simp [completesAtEnd_iff]
      have hcount' : (v.count + 1).toNat = v.count.toNat + 1 := by bv_omega
      rw [feed_cons_of_quiet (hreact.trans (reactEnd_of_match (by omega) rfl hmore)), feed_single]
      exact react_of_complete hv (phase_eq_complete (by simp only [hcount']; omega))
  | succ m ih =>
    have hreact := react_of_endMarker (t := t) (d := pat Config.endMarker v.count6.toNat) hv
      (phase_eq_endMarker (by omega) (by omega))
    have hmore : ¬ v.completesAtEnd t = true := by rw [completesAtEnd_iff]; omega
    have hcount6 : (v.count6 + 1).toNat = v.count6.toNat + 1 := by bv_omega
    have hcount' : (v.count + 1).toNat = v.count.toNat + 1 := by bv_omega
    rw [endRx_bits_drop x (by omega), feed_cons_of_quiet (hreact.trans (reactEnd_of_match (by omega) rfl hmore))]
    have hrest := ih { v with count6 := v.count6 + 1, count := v.count + 1 } hv
      (by simp only [hcount6]; omega) (by simp only [hcount', hcount6]; omega)
    simp only [hcount6] at hrest
    exact hrest

end

/-! ### The receive octets as instructions (log entry 8) -/

section
variable {s : State}

theorem exec_headerRx (id : BitVec 5) (n : BitVec 3) (s : State) :
    exec (.headerRx id n) s = .next (s.receiveOctet 16 (joinHeader id n)) := rfl

theorem exec_endRx (x : Bool) (s : State) :
    exec (.endRx x) s =
      .next (s.receiveOctet (24 + s.cur.val.payloadBits.toNat) (0b0100001#7 ++ BitVec.ofBool x)) := rfl

/-- At the p-th bit of the octet the Validator reacts to the bits that are left. -/
theorem receiveOctet_of_within {first p : Nat} (hcount : s.cur.val.count.toNat = first + p) (hp : p < 8) (w : Octet) :
    s.receiveOctet first w = s.applyReaction (s.cur.val.feed s.params.completeTrigger ((octetBits w).drop p)) := by
  rw [State.receiveOctet, if_pos (by omega), hcount, Nat.add_sub_cancel_left]

theorem exec_headerRx_of_within {p : Nat} (hcount : s.cur.val.count.toNat = 16 + p) (hp : p < 8) (id : BitVec 5)
    (n : BitVec 3) :
    exec (.headerRx id n) s =
      .next (s.applyReaction (s.cur.val.feed s.params.completeTrigger ((octetBits (joinHeader id n)).drop p))) := by
  rw [exec_headerRx, receiveOctet_of_within hcount hp]

theorem exec_endRx_of_within {p : Nat} (hcount : s.cur.val.count.toNat = 24 + s.cur.val.payloadBits.toNat + p)
    (hp : p < 8) (x : Bool) :
    exec (.endRx x) s =
      .next (s.applyReaction
        (s.cur.val.feed s.params.completeTrigger ((octetBits (0b0100001#7 ++ BitVec.ofBool x)).drop p))) := by
  rw [exec_endRx, receiveOctet_of_within hcount hp]

theorem receiveOctet_of_away {first : Nat} (h : s.cur.val.count.toNat < first ∨ first + 8 ≤ s.cur.val.count.toNat)
    (w : Octet) : s.receiveOctet first w = s := if_neg (by omega)

end

/-! ### The frame of a line, part by part -/

/-- `U` leaves nothing behind from each good starting position (43_validator.md section 4). -/
theorem feed_u (t : CompleteTrigger) {p : Nat} (hp : p ∈ [0, 3, 4, 7, 8]) :
    (Validator.reset.feed t ((octetBits Config.u).drop p)).val = Validator.reset
    ∧ (Validator.reset.feed t ((octetBits Config.u).drop p)).msg = none := by
  revert p
  cases t <;> decide

/-- The marker octets SYNC and STX, matched bit by bit (R142, R143). -/
theorem feed_sync_stx (t : CompleteTrigger) :
    Validator.reset.feed t (octetBits Config.sync ++ octetBits Config.stx) =
      Reaction.quiet { Validator.reset with count := 16, count2 := 8 } := by
  cases t <;> decide

/-- A Validator that has taken the frame of `cs` up to its END. -/
def Validator.beforeEnd (cs : List Octet) : Validator :=
  { Validator.reset with
    count := BitVec.ofNat 7 (24 + 8 * cs.length), count2 := 8, count3 := 5, count4 := 3
    count5 := BitVec.ofNat 6 (8 * cs.length), idBuf := Config.idPattern, nBuf := BitVec.ofNat 3 cs.length
    messageBuf := setBits 56 0 0 (cs.flatMap octetBits), payloadBits := BitVec.ofNat 6 (8 * cs.length) }

/-- From the header to the last payload bit (R144 to R146). -/
theorem feed_header_payload (t : CompleteTrigger) {cs : List Octet} (hlen : cs.length ≤ 7) :
    Validator.feed t { Validator.reset with count := 16, count2 := 8 }
        (octetBits (joinHeader Config.idPattern (BitVec.ofNat 3 cs.length)) ++ cs.flatMap octetBits) =
      Reaction.quiet (Validator.beforeEnd cs) := by
  have hn : (BitVec.ofNat 3 cs.length).toNat = cs.length := by simp; omega
  have hpayload : (BitVec.ofNat 6 (8 * cs.length)).toNat = 8 * cs.length := by simp; omega
  have hheader := feed_header (t := t) { Validator.reset with count := 16, count2 := 8 } ⟨rfl, rfl⟩ rfl rfl rfl
    Config.idPattern (BitVec.ofNat 3 cs.length)
  rw [hn] at hheader
  rw [feed_append_of_quiet hheader, feed_payload _ _ 0 ⟨rfl, rfl⟩ rfl rfl]
  · rw [length_flatMap_octetBits]
    simp [Validator.beforeEnd, Validator.reset, BitVec.ofNat_add]
  · show 0 + (cs.flatMap octetBits).length ≤ (BitVec.ofNat 6 (8 * cs.length)).toNat
    rw [hpayload, length_flatMap_octetBits, Nat.zero_add]
  · show (BitVec.ofNat 6 (8 * cs.length)).toNat ≤ 56
    omega

/-- The whole frame from a good starting position: COMPLETE of what was taken up to END. -/
theorem feed_frame (t : CompleteTrigger) {cs : List Octet} {p : Nat} (hlen : cs.length ≤ 7)
    (hp : p ∈ [0, 3, 4, 7, 8]) :
    (Validator.reset.feed t (((encodeFrame cs).flatMap octetBits).drop p)).val =
      (Validator.beforeEnd cs).completeFrame.val
    ∧ (Validator.reset.feed t (((encodeFrame cs).flatMap octetBits).drop p)).msg =
      some (Validator.beforeEnd cs).message := by
  have hbits : ((encodeFrame cs).flatMap octetBits).drop p =
      (octetBits Config.u).drop p ++ (octetBits Config.sync ++ octetBits Config.stx
        ++ (octetBits (joinHeader Config.idPattern (BitVec.ofNat 3 cs.length)) ++ cs.flatMap octetBits
          ++ octetBits Config.endMarker)) := by
    have hp8 : p ≤ (octetBits Config.u).length := by
      revert p; decide
    rw [encodeFrame_eq, List.flatMap_cons, List.drop_append_of_le_length hp8]
    simp only [List.flatMap_cons, List.flatMap_append, List.flatMap_nil, List.append_nil, List.append_assoc]
  have hend : (Validator.beforeEnd cs).feed t (octetBits Config.endMarker) =
      (Validator.beforeEnd cs).completeFrame := by
    refine feed_end true 6 (Validator.beforeEnd cs) ⟨rfl, rfl⟩ rfl ?_
    show (BitVec.ofNat 7 (24 + 8 * cs.length)).toNat = 24 + (BitVec.ofNat 6 (8 * cs.length)).toNat + 0
    simp only [BitVec.toNat_ofNat]
    omega
  obtain ⟨hval, hmsg⟩ := feed_u t hp
  rw [hbits, feed_append, hval, hmsg, feed_append_of_quiet (feed_sync_stx t),
    feed_append_of_quiet (feed_header_payload t hlen), hend]
  exact ⟨rfl, rfl⟩

/-! ### The statements -/

/-- Settles O31: each field is the sum over its bits, and octet j of the data has the bits from 8 j on. -/
theorem messageFieldsAreBigEndianSums : Obligations.MessageFieldsAreBigEndianSums := by
  intro v
  refine ⟨toNat_eq_sum_getMsbD v.idBuf, toNat_eq_sum_getMsbD v.nBuf, fun j hj => ?_⟩
  rw [toNat_eq_sum_getMsbD]
  refine Finset.sum_congr rfl fun k hk => ?_
  rw [getMsbD_extractLsb'_octet _ hj (Finset.mem_range.mp hk)]
  rfl

/-- Settles O32: at `count` = 16 the row is the reaction to all eight bits of the header. -/
theorem headerRxStoresBothFields : Obligations.HeaderRxStoresBothFields := by
  intro s id n hparked hfault hcount hcount3 hcount4
  rw [exec_headerRx_of_within (p := 0) (by rw [hcount]; rfl) (by omega), List.drop_zero,
    feed_header _ ⟨hparked, hfault⟩ hcount hcount3 hcount4, applyReaction_quiet]

/-- Settles O33: at the first bit of END the row is the reaction to all eight bits, which completes the frame. -/
theorem endRxCompletesTheFrame : Obligations.EndRxCompletesTheFrame := by
  intro s x hparked hfault hcount hcount6
  have hidx : s.cur.val.count6.toNat = 0 := by rw [hcount6]; rfl
  have hend := feed_end (t := s.params.completeTrigger) x 6 s.cur.val ⟨hparked, hfault⟩ (by omega) (by omega)
  rw [hidx] at hend
  rw [exec_endRx_of_within (p := 0) (by omega) (by omega), hend, applyReaction_completeFrame, hfault]
  rfl

/-- Settles O34: the two cases of `receiveOctet`, with the bits of the two octets written out. -/
theorem receiveOctetsReactToTheBitsLeft : Obligations.ReceiveOctetsReactToTheBitsLeft := by
  intro s id n x
  refine ⟨fun haway => ?_, fun haway => ?_, fun p hcount hp => ?_, fun p hcount hp => ?_⟩
  · rw [exec_headerRx, receiveOctet_of_away haway]
  · rw [exec_endRx, receiveOctet_of_away (by omega)]
  · rw [exec_headerRx_of_within hcount hp, octetBits_joinHeader]
  · rw [exec_endRx_of_within hcount hp, octetBits_endRx]

/-- Settles O35: the frame is taken part by part, and bit k of octet j of the message is the bit captured at
8 j + k. -/
theorem everyFrameDecodesToItsLine : Obligations.EveryFrameDecodesToItsLine := by
  intro trigger cs p hlen hp
  obtain ⟨hval, hmsg⟩ := feed_frame trigger hlen hp
  refine ⟨(Validator.beforeEnd cs).message, hmsg, hval, rfl, ?_, fun j hj => ?_⟩
  · show (BitVec.ofNat 3 cs.length).toNat = cs.length
    simp only [BitVec.toNat_ofNat]
    omega
  · refine BitVec.eq_of_getMsbD_eq fun k hk => ?_
    rw [getMsbD_extractLsb'_octet _ hj hk]
    show (setBits 56 0 0 (cs.flatMap octetBits)).getMsbD (8 * j + k) = _
    rw [getMsbD_setBits _ _ _ _ _ (by rw [length_flatMap_octetBits]; omega), if_pos (Nat.zero_le _), Nat.sub_zero,
      getElem?_flatMap_octetBits cs j hk, List.getD_eq_getElem?_getD]
    cases cs[j]? <;> simp

end Sys2Proof.Machine
end

section
/-! PROOFS of the statements about the invariant of 10_state.md section 5 (R25, R155, R157): the reset state meets it,
every step keeps it, and under it the machine never stops; a stale Validator delivers nothing (R155), a faulted one is
frozen (R196), a message is zero beyond its length (R72), and a cycle raises at most one event of the receive side
(R199). First what one reaction keeps, phase by phase, then each part of the block over a cycle. -/

namespace Sys2Proof.Machine

/-! ### Capture buffers that are clean beyond an index -/

/-- A buffer is clean from index `i` on iff shifting the bits before `i` out leaves nothing. -/
theorem shiftLeft_eq_zero_iff {w : Nat} (a : BitVec w) (i : Nat) :
    a <<< i = 0 ↔ ∀ j, i ≤ j → a.getMsbD j = false := by
  constructor
  · intro h j hj
    have hbit : (a <<< i).getMsbD (j - i) = false := by rw [h]; simp
    rwa [BitVec.getMsbD_shiftLeft, Nat.sub_add_cancel hj] at hbit
  · intro h
    refine BitVec.eq_of_getMsbD_eq fun j _ => ?_
    rw [BitVec.getMsbD_shiftLeft, h _ (Nat.le_add_left i j)]
    simp

/-- Writing bit `i` of a buffer that is clean from `i` on leaves it clean from `i + 1` on. -/
theorem setBit_shiftLeft_eq_zero {w : Nat} {a : BitVec w} {i : Nat} (d : Bool) (hi : i < w) (h : a <<< i = 0) :
    setBit w a i d <<< (i + 1) = 0 := by
  rw [shiftLeft_eq_zero_iff] at h ⊢
  intro j hj
  rw [getMsbD_setBit w a i j d hi, if_neg (by omega), h j (by omega)]

/-! ### One reaction keeps the Validator in step or stale (R155, R157) -/

section
variable {t : CompleteTrigger} {v : Validator}

/-- The Validator State all zero is in step, parked or not. -/
theorem reset_inStep (t : CompleteTrigger) (parked fault : Bool) :
    { Validator.reset with vParked := parked, vFault := fault }.inStep t := by
  simp [Validator.inStep, Validator.reset]

/-- Before the header is complete: the sub-counters follow `count`, the last two have not begun. -/
theorem inStep_iff_of_lt (hlt : v.count.toNat < 24) :
    v.inStep t ↔
      v.count2.toNat = min (v.count.toNat - 8) 8 ∧ v.count3.toNat = min (v.count.toNat - 16) 5
      ∧ v.count4.toNat = v.count.toNat - 21 ∧ v.count5.toNat = 0 ∧ v.count6.toNat = 0 ∧ v.payloadBits.toNat = 0
      ∧ v.idBuf <<< v.count3.toNat = 0 ∧ v.nBuf <<< v.count4.toNat = 0 ∧ v.messageBuf = 0 := by
  have hlast : 30 ≤ if t = .nextBit then 31 else 30 := by split <;> omega
  rw [Validator.inStep, if_neg (by omega)]
  constructor
  · rintro ⟨h2, h3, h4, h5, h6, hpb, -, hid, hn, hmsg⟩
    have h5' : v.count5.toNat = 0 := by omega
    rw [h5', BitVec.shiftLeft_zero] at hmsg
    exact ⟨h2, h3, by omega, h5', by omega, hpb, hid, hn, hmsg⟩
  · rintro ⟨h2, h3, h4, h5, h6, hpb, hid, hn, hmsg⟩
    exact ⟨h2, h3, by omega, by omega, by omega, hpb, by omega, hid, hn, by rw [hmsg]; simp⟩

/-- From the header on: STX, ID and LENGTH are done, `payload_bits` is eight times the length. -/
theorem inStep_iff_of_ge (hge : 24 ≤ v.count.toNat) :
    v.inStep t ↔
      v.count2.toNat = 8 ∧ v.count3.toNat = 5 ∧ v.count4.toNat = 3
      ∧ v.count5.toNat = min (v.count.toNat - 24) v.payloadBits.toNat
      ∧ v.count6.toNat = v.count.toNat - 24 - v.payloadBits.toNat ∧ v.payloadBits.toNat = 8 * v.nBuf.toNat
      ∧ v.count.toNat ≤ (if t = .nextBit then 31 else 30) + v.payloadBits.toNat
      ∧ v.messageBuf <<< v.count5.toNat = 0 := by
  rw [Validator.inStep, if_pos hge]
  constructor
  · rintro ⟨h2, h3, h4, h5, h6, hpb, hmax, -, -, hmsg⟩
    exact ⟨by omega, by omega, by omega, h5, h6, hpb, hmax, hmsg⟩
  · rintro ⟨h2, h3, h4, h5, h6, hpb, hmax, hmsg⟩
    refine ⟨by omega, by omega, by omega, h5, h6, hpb, hmax, ?_, ?_, hmsg⟩
    · rw [h3]; exact BitVec.shiftLeft_eq_zero (Nat.le_refl 5)
    · rw [h4]; exact BitVec.shiftLeft_eq_zero (Nat.le_refl 3)

theorem ok_of_inStep (h : v.inStep t) (hv : v.awake) : v.ok t :=
  .inl ⟨h, hv.2, fun hparked => absurd hparked (by simp [hv.1])⟩

theorem completeFrame_ok (hv : v.awake) : v.completeFrame.val.ok t :=
  .inl ⟨reset_inStep t true v.vFault, hv.2, fun _ => rfl⟩

theorem reactSync_ok (h : v.inStep t) (hv : v.awake) (hle : v.count.toNat ≤ 7) (d : Bool) :
    (v.reactSync d).val.ok t := by
  obtain ⟨h2, h3, h4, h5, h6, hpb, hid, hn, hmsg⟩ := (inStep_iff_of_lt (by omega)).mp h
  by_cases hbit : d = pat Config.sync v.count.toNat
  · have hcount : (v.count + 1).toNat = v.count.toNat + 1 := by bv_omega
    rw [reactSync_of_match hbit]
    refine ok_of_inStep ((inStep_iff_of_lt ?_).mpr ⟨?_, ?_, ?_, h5, h6, hpb, hid, hn, hmsg⟩) hv
    all_goals dsimp only [Reaction.quiet]; omega
  · have hzero : (0 : BitVec 7).toNat = 0 := rfl
    rw [reactSync_of_mismatch hbit]
    refine ok_of_inStep ((inStep_iff_of_lt ?_).mpr ⟨?_, ?_, ?_, h5, h6, hpb, hid, hn, hmsg⟩) hv
    all_goals dsimp only; omega

theorem reactStx_ok (h : v.inStep t) (hv : v.awake) (hge : 8 ≤ v.count.toNat) (hle : v.count.toNat ≤ 15) (d : Bool) :
    (v.reactStx d).val.ok t := by
  obtain ⟨h2, h3, h4, h5, h6, hpb, hid, hn, hmsg⟩ := (inStep_iff_of_lt (by omega)).mp h
  by_cases hbit : d = pat Config.stx v.count2.toNat
  · have hcount : (v.count + 1).toNat = v.count.toNat + 1 := by bv_omega
    have hcount2 : (v.count2 + 1).toNat = v.count2.toNat + 1 := by bv_omega
    rw [reactStx_of_match (by omega) hbit]
    refine ok_of_inStep ((inStep_iff_of_lt ?_).mpr ⟨?_, ?_, ?_, h5, h6, hpb, hid, hn, hmsg⟩) hv
    all_goals dsimp only [Reaction.quiet]; omega
  · have hzero : (0 : BitVec 7).toNat = 0 := rfl
    have hzero2 : (0 : BitVec 4).toNat = 0 := rfl
    rw [reactStx_of_mismatch (by omega) hbit]
    refine ok_of_inStep ((inStep_iff_of_lt ?_).mpr ⟨?_, ?_, ?_, h5, h6, hpb, hid, hn, hmsg⟩) hv
    all_goals dsimp only; omega

theorem reactId_ok (h : v.inStep t) (hv : v.awake) (hge : 16 ≤ v.count.toNat) (hle : v.count.toNat ≤ 20) (d : Bool) :
    (v.reactId d).val.ok t := by
  obtain ⟨h2, h3, h4, h5, h6, hpb, hid, hn, hmsg⟩ := (inStep_iff_of_lt (by omega)).mp h
  have hcount : (v.count + 1).toNat = v.count.toNat + 1 := by bv_omega
  have hcount3 : (v.count3 + 1).toNat = v.count3.toNat + 1 := by bv_omega
  rw [reactId_of_room (by omega)]
  refine ok_of_inStep ((inStep_iff_of_lt ?_).mpr ⟨?_, ?_, ?_, h5, h6, hpb, ?_, hn, hmsg⟩) hv
  case refine_5 =>
    dsimp only [Reaction.quiet]
    rw [hcount3]
    exact setBit_shiftLeft_eq_zero d (by omega) hid
  all_goals dsimp only [Reaction.quiet]; omega

/-- With the third bit the header is complete, and `payload_bits` is computed (R145). -/
theorem reactLength_ok (h : v.inStep t) (hv : v.awake) (hge : 21 ≤ v.count.toNat) (hle : v.count.toNat ≤ 23)
    (d : Bool) : (v.reactLength d).val.ok t := by
  obtain ⟨h2, h3, h4, h5, h6, hpb, hid, hn, hmsg⟩ := (inStep_iff_of_lt (by omega)).mp h
  have hcount : (v.count + 1).toNat = v.count.toNat + 1 := by bv_omega
  have hcount4 : (v.count4 + 1).toNat = v.count4.toNat + 1 := by bv_omega
  rw [reactLength_of_room (by omega)]
  refine ok_of_inStep ?_ hv
  by_cases hlast : v.count.toNat = 23
  · have hthird : v.count4.toNat + 1 = 3 := by omega
    have hpb' := payloadBits_toNat (setBit 3 v.nBuf v.count4.toNat d)
    have hend : 24 ≤ if t = .nextBit then 31 else 30 := by split <;> omega
    refine (inStep_iff_of_ge ?_).mpr ⟨?_, ?_, ?_, ?_, ?_, ?_, ?_, ?_⟩
    case refine_9 =>
      dsimp only [Reaction.quiet]
      rw [hmsg]
      simp
    all_goals simp only [Reaction.quiet, if_pos hthird]; omega
  · refine (inStep_iff_of_lt ?_).mpr ⟨?_, ?_, ?_, h5, h6, ?_, hid, ?_, hmsg⟩
    case refine_6 =>
      dsimp only [Reaction.quiet]
      rw [hcount4]
      exact setBit_shiftLeft_eq_zero d (by omega) hn
    case refine_5 =>
      dsimp only [Reaction.quiet]
      rw [if_neg (by omega), hpb]
    all_goals dsimp only [Reaction.quiet]; omega

theorem reactPayload_ok (h : v.inStep t) (hv : v.awake) (hge : 24 ≤ v.count.toNat)
    (hle : v.count.toNat ≤ 23 + v.payloadBits.toNat) (d : Bool) : (v.reactPayload d).val.ok t := by
  obtain ⟨h2, h3, h4, h5, h6, hpb, hmax, hmsg⟩ := (inStep_iff_of_ge hge).mp h
  have hlen : v.nBuf.toNat < 8 := v.nBuf.isLt
  have hcount : (v.count + 1).toNat = v.count.toNat + 1 := by bv_omega
  have hcount5 : (v.count5 + 1).toNat = v.count5.toNat + 1 := by bv_omega
  have hend : 24 ≤ if t = .nextBit then 31 else 30 := by split <;> omega
  rw [reactPayload_of_room (by omega)]
  refine ok_of_inStep ((inStep_iff_of_ge ?_).mpr ⟨h2, h3, h4, ?_, ?_, hpb, ?_, ?_⟩) hv
  case refine_5 =>
    dsimp only [Reaction.quiet]
    rw [hcount5]
    exact setBit_shiftLeft_eq_zero d (by omega) hmsg
  all_goals dsimp only [Reaction.quiet]; omega

/-- A mismatch in END keeps the sub-counters of STX and ID: the Validator is stale from then on (R154, R155). -/
theorem reactEnd_ok (h : v.inStep t) (hv : v.awake) (hge : 24 + v.payloadBits.toNat ≤ v.count.toNat)
    (hle : v.count.toNat ≤ 30 + v.payloadBits.toNat) (d : Bool) : (v.reactEnd t d).val.ok t := by
  obtain ⟨h2, h3, h4, h5, h6, hpb, hmax, hmsg⟩ := (inStep_iff_of_ge (by omega)).mp h
  by_cases hbit : d = pat Config.endMarker v.count6.toNat
  · by_cases hlast : v.completesAtEnd t = true
    · rw [reactEnd_of_last_match (by omega) hbit hlast]
      exact completeFrame_ok hv
    · have hcount : (v.count + 1).toNat = v.count.toNat + 1 := by bv_omega
      have hcount6 : (v.count6 + 1).toNat = v.count6.toNat + 1 := by bv_omega
      have hmax' : v.count.toNat + 1 ≤ (if t = .nextBit then 31 else 30) + v.payloadBits.toNat := by
        rw [completesAtEnd_iff] at hlast
        cases t with
        | nextBit => rw [if_pos rfl]; omega
        | sameBit => rw [if_neg (by decide)]; simp at hlast; omega
      rw [reactEnd_of_match (by omega) hbit hlast]
      refine ok_of_inStep ((inStep_iff_of_ge ?_).mpr ⟨h2, h3, h4, ?_, ?_, hpb, ?_, hmsg⟩) hv
      all_goals dsimp only [Reaction.quiet]; omega
  · rw [reactEnd_of_mismatch (by omega) hbit]
    exact .inr ⟨⟨h2, h3, rfl, rfl, rfl, Nat.zero_le 8⟩, hv.1, fun hfault => absurd hfault (by simp [hv.2])⟩

/-- The phase is told by the range of `count` (R141). -/
theorem phase_cases (v : Validator) :
    (v.phase = .sync ∧ v.count.toNat ≤ 7) ∨ (v.phase = .stx ∧ 8 ≤ v.count.toNat ∧ v.count.toNat ≤ 15)
    ∨ (v.phase = .id ∧ 16 ≤ v.count.toNat ∧ v.count.toNat ≤ 20)
    ∨ (v.phase = .length ∧ 21 ≤ v.count.toNat ∧ v.count.toNat ≤ 23)
    ∨ (v.phase = .payload ∧ 24 ≤ v.count.toNat ∧ v.count.toNat ≤ 23 + v.payloadBits.toNat)
    ∨ (v.phase = .endMarker ∧ 24 + v.payloadBits.toNat ≤ v.count.toNat
      ∧ v.count.toNat ≤ 30 + v.payloadBits.toNat)
    ∨ (v.phase = .complete ∧ 31 + v.payloadBits.toNat ≤ v.count.toNat) := by
  unfold Validator.phase
  split_ifs <;> simp <;> omega

/-- A stale Validator matches SYNC again and again, until the guard of STX faults it (R155). -/
theorem react_of_stale (h : v.stale) (hv : v.awake) (d : Bool) :
    (v.react t d).msg = none ∧ (v.react t d).val.stale ∧ (v.react t d).val.vParked = false
    ∧ ((v.react t d).val.vFault = true → (v.react t d).val.count.toNat = 8) := by
  obtain ⟨h2, h3, h4, h5, h6, hmax⟩ := h
  by_cases hle : v.count.toNat ≤ 7
  · rw [react_of_sync hv (phase_eq_sync hle)]
    have not_faulted {n : Nat} (hfault : v.vFault = true) : n = 8 := absurd hfault (by simp [hv.2])
    by_cases hbit : d = pat Config.sync v.count.toNat
    · have hcount : (v.count + 1).toNat ≤ 8 := by bv_omega
      rw [reactSync_of_match hbit]
      exact ⟨rfl, ⟨h2, h3, h4, h5, h6, hcount⟩, hv.1, not_faulted⟩
    · rw [reactSync_of_mismatch hbit]
      exact ⟨rfl, ⟨h2, h3, h4, h5, h6, Nat.zero_le 8⟩, hv.1, not_faulted⟩
  · rw [react_of_stx hv (phase_eq_stx (by omega) (by omega)), reactStx_of_guard (by omega)]
    exact ⟨rfl, ⟨h2, h3, h4, h5, h6, hmax⟩, hv.1, fun _ => by dsimp only [Validator.indexFault]; omega⟩

/-- Every reaction keeps the invariant of the Validator's registers. -/
theorem react_ok (h : v.ok t) (hv : v.awake) (d : Bool) : (v.react t d).val.ok t := by
  obtain ⟨hin, -, -⟩ | ⟨hstale, -, -⟩ := h
  · obtain ⟨hp, hle⟩ | ⟨hp, hge, hle⟩ | ⟨hp, hge, hle⟩ | ⟨hp, hge, hle⟩ | ⟨hp, hge, hle⟩ | ⟨hp, hge, hle⟩ | ⟨hp, -⟩ :=
      phase_cases v
    · rw [react_of_sync hv hp]; exact reactSync_ok hin hv hle d
    · rw [react_of_stx hv hp]; exact reactStx_ok hin hv hge hle d
    · rw [react_of_id hv hp]; exact reactId_ok hin hv hge hle d
    · rw [react_of_length hv hp]; exact reactLength_ok hin hv hge hle d
    · rw [react_of_payload hv hp]; exact reactPayload_ok hin hv hge hle d
    · rw [react_of_endMarker hv hp]; exact reactEnd_ok hin hv hge hle d
    · rw [react_of_complete hv hp]; exact completeFrame_ok hv
  · obtain ⟨-, hstale', hparked, hfault⟩ := react_of_stale (t := t) hstale hv d
    exact .inr ⟨hstale', hparked, hfault⟩

end

/-! ### What a reaction does to the parked flag and which events it raises (R149, R190) -/

section
variable {t : CompleteTrigger} {v : Validator} {d : Bool}

/-- The three mismatch events, one for each marker octet (R192 to R194). -/
def mismatches : List Events :=
  [{ Events.none with syncMismatch := true }, { Events.none with stxMismatch := true },
    { Events.none with endMismatch := true }]

/-- What a reaction can be: quiet, a mismatch, the index fault, or COMPLETE. Only COMPLETE touches the parked flag. -/
theorem react_cases (v : Validator) (d : Bool) :
    (∃ w, v.react t d = Reaction.quiet w ∧ w.vParked = v.vParked)
    ∨ (∃ w, ∃ e ∈ mismatches, v.react t d = { val := w, msg := none, events := e } ∧ w.vParked = v.vParked)
    ∨ v.react t d = v.indexFault ∨ v.react t d = v.completeFrame := by
  by_cases hv : v.awake
  · cases hp : v.phase
    case sync =>
      rw [react_of_sync hv hp, Validator.reactSync]
      split
      · exact .inl ⟨_, rfl, rfl⟩
      · exact .inr (.inl ⟨_, _, by simp [mismatches], rfl, rfl⟩)
    case stx =>
      rw [react_of_stx hv hp, Validator.reactStx]
      split_ifs
      · exact .inr (.inr (.inl rfl))
      · exact .inl ⟨_, rfl, rfl⟩
      · exact .inr (.inl ⟨_, _, by simp [mismatches], rfl, rfl⟩)
    case id =>
      rw [react_of_id hv hp, Validator.reactId]
      split
      · exact .inr (.inr (.inl rfl))
      · exact .inl ⟨_, rfl, rfl⟩
    case length =>
      rw [react_of_length hv hp, Validator.reactLength]
      split
      · exact .inr (.inr (.inl rfl))
      · exact .inl ⟨_, rfl, rfl⟩
    case payload =>
      rw [react_of_payload hv hp, Validator.reactPayload]
      split
      · exact .inr (.inr (.inl rfl))
      · exact .inl ⟨_, rfl, rfl⟩
    case endMarker =>
      rw [react_of_endMarker hv hp, Validator.reactEnd]
      split_ifs
      · exact .inr (.inr (.inl rfl))
      · exact .inr (.inr (.inr rfl))
      · exact .inl ⟨_, rfl, rfl⟩
      · exact .inr (.inl ⟨_, _, by simp [mismatches], rfl, rfl⟩)
    case complete => exact .inr (.inr (.inr (react_of_complete hv hp)))
  · have hwaiting : (v.vParked || v.vFault) = true := by
      by_contra hnot
      exact hv (by simpa using hnot)
    exact .inl ⟨v, react_of_waiting t v d hwaiting, rfl⟩

/-- A reaction is COMPLETE, or it emits nothing and parks nothing. -/
theorem react_complete_or_silent (v : Validator) (d : Bool) :
    v.react t d = v.completeFrame ∨ ((v.react t d).msg = none ∧ (v.react t d).val.vParked = v.vParked) := by
  obtain ⟨w, hr, hw⟩ | ⟨w, e, -, hr, hw⟩ | hr | hr := react_cases (t := t) v d
  · exact .inr (by rw [hr]; exact ⟨rfl, hw⟩)
  · exact .inr (by rw [hr]; exact ⟨rfl, hw⟩)
  · exact .inr (by rw [hr]; exact ⟨rfl, rfl⟩)
  · exact .inl hr

/-- The events of the Validator in a reaction, counted. -/
def Events.ofValidator (e : Events) : Nat :=
  e.syncMismatch.toNat + e.stxMismatch.toNat + e.endMismatch.toNat + e.validatorIndexFault.toNat

/-- A reaction raises at most one event (R199). -/
theorem react_events_le_one (v : Validator) (d : Bool) : (v.react t d).events.ofValidator ≤ 1 := by
  obtain ⟨w, hr, -⟩ | ⟨w, e, he, hr, -⟩ | hr | hr := react_cases (t := t) v d <;> rw [hr]
  · exact Nat.zero_le 1
  · have hone : ∀ e ∈ mismatches, e.ofValidator ≤ 1 := by decide
    exact hone e he
  · exact Nat.le_refl 1
  · exact Nat.zero_le 1

end

/-! ### The reaction of a cycle -/

section
variable {s : State}

theorem reactionNow_of_decided {d : Bool} (hd : s.decided = some d) :
    s.reactionNow = s.cur.val.react s.params.completeTrigger d := by
  simp only [State.reactionNow, hd]

theorem reactionNow_of_not_decided (hd : s.decided = none) : s.reactionNow = Reaction.quiet s.cur.val := by
  simp only [State.reactionNow, hd]

theorem decided_of_waiting (h : s.cur.val.vParked = true ∨ s.cur.val.vFault = true) : s.decided = none := by
  obtain h | h := h <;> simp [State.decided, h]

theorem decided_of_not_groupEnds (h : s.groupEnds = false) : s.decided = none := by
  simp [State.decided, published_eq_none_of_not_groupEnds h]

theorem valPulsed_of_not_parked (h : s.cur.val.vParked = false) (v : Validator) : s.valPulsed v = v := by
  simp [State.valPulsed, h]

/-- The Validator is parked after a reaction iff it was parked or the reaction was COMPLETE (R149). -/
theorem reactionNow_vParked (s : State) :
    s.reactionNow.val.vParked = (s.cur.val.vParked || s.reactionNow.msg.isSome) := by
  cases hd : s.decided with
  | none => simp [reactionNow_of_not_decided hd, Reaction.quiet]
  | some d =>
    rw [reactionNow_of_decided hd]
    obtain hcomplete | ⟨hmsg, hparked⟩ := react_complete_or_silent s.cur.val d
    · rw [hcomplete]
      simp [Validator.completeFrame]
    · rw [hmsg, hparked]
      simp

/-- A message completes in the last tick cycle of a group of a running Receiver (R130, R149). -/
theorem groupEnds_of_msg (h : s.reactionNow.msg.isSome = true) : s.groupEnds = true := by
  cases hends : s.groupEnds with
  | true => rfl
  | false => simp [reactionNow_of_not_decided (decided_of_not_groupEnds hends), Reaction.quiet] at h

end

/-! ### Each part of the block over a cycle -/

section
variable {s : State}

theorem tdivAfter_le (h : s.cur.tdiv ≤ s.params.tCycles - 1) : s.tdivAfter ≤ s.params.tCycles - 1 := by
  unfold State.tdivAfter
  split
  · exact Nat.zero_le _
  · rename_i htick
    rw [tick_iff] at htick
    omega

/-- The Framer's counters over a cycle (R25(d)): each branch of R91 to R98. -/
theorem framerAfter_ok (h : s.cur.framer.ok) : (s.framerAfter s.cur.framer).ok := by
  obtain ⟨hlen, hframe⟩ := h
  have accumulating {f : Framer} (hstate : f.fState = .accum) (hlen : f.fLen.toNat ≤ 8) : f.ok :=
    ⟨hlen, fun hne => absurd hstate hne⟩
  unfold State.framerAfter
  split
  · exact accumulating rfl (Nat.zero_le 8)
  split
  · rename_i haccepts
    have hstate : s.cur.framer.fState = .accum := ((accepts_iff s).mp haccepts).2.1
    split
    · split
      · rename_i hfits
        exact ⟨hlen, fun _ => ⟨hfits, Nat.zero_le _⟩⟩
      · split
        · exact accumulating hstate (Nat.zero_le 8)
        · exact accumulating hstate hlen
    · split
      · exact accumulating hstate (by bv_omega)
      · exact accumulating hstate (Nat.le_refl 8)
  split
  · rename_i hpushes
    have hstate : s.cur.framer.fState = .push := ((pushes_iff s).mp hpushes).1
    obtain ⟨hlen7, hidx⟩ := hframe (by simp [hstate])
    split
    · exact ⟨hlen, fun _ => ⟨hlen7, hidx⟩⟩
    · rename_i hmore
      rw [atEnd_iff] at hmore
      exact ⟨hlen, fun _ => ⟨hlen7, by bv_omega⟩⟩
  · exact ⟨hlen, hframe⟩

/-- The release of a parked Validator leaves it in step at the start of a frame (R173). -/
theorem valPulsed_ok {t : CompleteTrigger} {v : Validator} (h : v.ok t) : (s.valPulsed v).ok t := by
  unfold State.valPulsed
  split
  · obtain ⟨hin, hfault, -⟩ | ⟨hstale, -, hfault⟩ := h
    · exact .inl ⟨hin, hfault, fun hparked => absurd hparked (by simp)⟩
    · exact .inr ⟨hstale, rfl, hfault⟩
  · exact h

theorem valAfter_ok (h : s.cur.val.ok s.params.completeTrigger) : s.valAfter.ok s.params.completeTrigger := by
  refine valPulsed_ok ?_
  cases hd : s.decided with
  | none => rwa [reactionNow_of_not_decided hd]
  | some d =>
    rw [reactionNow_of_decided hd]
    exact react_ok h (not_waiting_of_decided s hd) d

/-- The handshake over a cycle (R25(a), R149, R171): set together by COMPLETE, cleared together by the signals. -/
theorem regsAfter_handshake (h : s.cur.handshake) : s.regsAfter.handshake := by
  obtain ⟨hsame, hpaused⟩ := h
  show s.resetFlagAfter = s.valAfter.vParked ∧
    (s.resetFlagAfter = true → s.rxAfter.rxStarted = true ∧ s.rxAfter.rxIdx = 0)
  cases hmsg : s.reactionNow.msg.isSome with
  | true =>
    have hends := groupEnds_of_msg hmsg
    obtain ⟨htdiv, hstarted, hflag, hidx⟩ := (groupEnds_iff s).mp hends
    have hsamples : s.rxSamples = true := (rxSamples_iff s).mpr ⟨(tick_iff s).mpr htdiv, hstarted, hflag⟩
    have hval : s.valAfter.vParked = true := by
      rw [State.valAfter, valPulsed_of_not_parked (hsame ▸ hflag), reactionNow_vParked, hmsg, Bool.or_true]
    refine ⟨by rw [State.resetFlagAfter, if_pos hmsg, hval], fun _ => ?_⟩
    rw [State.rxAfter, if_pos hsamples]
    unfold Receiver.take
    split <;> exact ⟨hstarted, by dsimp only [Receiver.store]; rw [hidx]; rfl⟩
  | false =>
    have hparked : s.reactionNow.val.vParked = s.cur.resetFlag := by
      rw [reactionNow_vParked, hmsg, Bool.or_false, hsame]
    have hflag : s.resetFlagAfter = (s.cur.resetFlag && !(s.sigRaised && s.cur.resetFlag)) := by
      rw [State.resetFlagAfter, hmsg]
      cases s.sigRaised <;> cases s.cur.resetFlag <;> rfl
    have hval : s.valAfter.vParked = (s.cur.resetFlag && !(s.sigRaised && s.cur.resetFlag)) := by
      rw [State.valAfter, State.valPulsed, ← hsame]
      split
      · rename_i hboth; rw [hboth]; simp
      · rename_i hnot; rw [hparked, Bool.eq_false_iff.mpr hnot]; simp
    refine ⟨hflag.trans hval.symm, fun hset => ?_⟩
    rw [hflag] at hset
    have hraised : s.cur.resetFlag = true ∧ s.sigRaised = false := by
      revert hset
      cases s.sigRaised <;> cases s.cur.resetFlag <;> simp
    have hrun : s.rxRunning = false := rxRunning_of_waiting (.inr hraised.1)
    rw [State.rxAfter, if_neg (Bool.eq_false_iff.mp (rxSamples_of_not_running hrun)), State.rxPulsed, hraised.2]
    exact hpaused hraised.1

/-- A clock cycle keeps the invariant of the registers. -/
theorem cycleAfter_inv (h : Inv s) : Inv s.cycleAfter := by
  obtain ⟨⟨htdiv, hframer, hqueue, hval, hshake⟩, -⟩ := h
  exact ⟨⟨tdivAfter_le htdiv, framerAfter_ok hframer, queueAfter_ok s hqueue, valAfter_ok hval,
    regsAfter_handshake hshake⟩, rfl, rfl, rfl⟩

end

/-! ### The statements -/

/-- The reset values meet the invariant of the registers, whatever the parameters. -/
theorem reset_ok (p : Params) : Regs.reset.ok p :=
  ⟨Nat.zero_le _, ⟨Nat.zero_le 8, fun h => absurd rfl h⟩, Nat.zero_le _,
    .inl ⟨reset_inStep p.completeTrigger false false, rfl, fun _ => rfl⟩, rfl, fun h => absurd h (by decide)⟩

/-- Settles O48. -/
theorem resetStateMeetsInvariant : Obligations.ResetStateMeetsInvariant :=
  fun p => ⟨reset_ok p, rfl, rfl, rfl⟩

/-- Settles O49: a step is a reset cycle or a clock cycle. -/
theorem everyStepKeepsInvariant : Obligations.EveryStepKeepsInvariant := by
  intro s t hinv hstep
  obtain ⟨-, hreset⟩ | ⟨-, -, hcycle⟩ | ⟨-, -, -, hfault⟩ := step_cases s
  · obtain rfl : s.resetCycle = t := by simpa [hreset] using hstep
    exact ⟨reset_ok s.params, rfl, rfl, rfl⟩
  · obtain rfl : s.cycleAfter = t := by simpa [hcycle] using hstep
    exact cycleAfter_inv hinv
  · simp [hfault] at hstep

/-- Under the invariant R95 defines the octet that is pushed. -/
theorem frameByte_isSome_of_inv {s : State} (h : Inv s) (hp : s.pushes = true) :
    s.cur.framer.frameByte.isSome = true := by
  obtain ⟨⟨-, ⟨-, hframe⟩, -⟩, -⟩ := h
  obtain ⟨hlen, hidx⟩ := hframe (by simp [((pushes_iff s).mp hp).1])
  exact Option.isSome_iff_exists.mpr (frameByte_isSome hlen hidx)

/-- Under the invariant a step with `rst` = 0 is the clock cycle. -/
theorem step_of_inv {s : State} (h : Inv s) (hrst : s.inp.rst = false) : step s = .next s.cycleAfter :=
  step_eq s hrst (frameByte_isSome_of_inv h)

/-- Settles O50. -/
theorem noStepStopsUnderInvariant : Obligations.NoStepStopsUnderInvariant := by
  intro s hinv
  cases hrst : s.inp.rst with
  | true => exact ⟨_, step_reset s hrst⟩
  | false => exact ⟨_, step_of_inv hinv hrst⟩

/-- What a step that answers with `rst` = 0 answers. -/
theorem eq_cycleAfter_of_step {s t : State} (hrst : s.inp.rst = false) (hstep : step s = .next t) :
    t = s.cycleAfter := by
  obtain ⟨hreset, -⟩ | ⟨-, -, hcycle⟩ | ⟨-, -, -, hfault⟩ := step_cases s
  · simp [hrst] at hreset
  · simpa [hcycle] using hstep.symm
  · simp [hfault] at hstep

/-- Settles O51: a decided bit is a reaction of the stale Validator; the signals leave every counter alone. -/
theorem staleValidatorNeverDelivers : Obligations.StaleValidatorNeverDelivers := by
  intro s t _ hstale hrst hstep
  obtain rfl := eq_cycleAfter_of_step hrst hstep
  have hreaction : s.reactionNow.msg = none ∧ s.reactionNow.val.stale := by
    cases hd : s.decided with
    | none => rw [reactionNow_of_not_decided hd]; exact ⟨rfl, hstale⟩
    | some d =>
      rw [reactionNow_of_decided hd]
      obtain ⟨hmsg, hstale', -⟩ := react_of_stale hstale (not_waiting_of_decided s hd) d
      exact ⟨hmsg, hstale'⟩
  obtain ⟨hmsg, hval⟩ := hreaction
  refine ⟨?_, by show s.reactionNow.msg.isSome = false; rw [hmsg]; rfl⟩
  show (s.valPulsed s.reactionNow.val).stale
  unfold State.valPulsed
  split <;> exact hval

/-- Settles O52: a faulted Validator has no decided bit, and one that is not parked is not released. -/
theorem faultedValidatorIsFrozenUntilReset : Obligations.FaultedValidatorIsFrozenUntilReset := by
  intro s t hfault hparked hrst hstep
  obtain rfl := eq_cycleAfter_of_step hrst hstep
  have hnow : s.reactionNow = Reaction.quiet s.cur.val := reactionNow_of_not_decided (decided_of_waiting (.inr hfault))
  refine ⟨?_, by show s.reactionNow.msg.isSome = false; rw [hnow]; rfl⟩
  show s.valPulsed s.reactionNow.val = s.cur.val
  rw [hnow, valPulsed_of_not_parked hparked]
  rfl

theorem exists_decided_of_firesVComplete {s : State} (h : firesVComplete s = true) : ∃ d, s.decided = some d := by
  refine Option.ne_none_iff_exists'.mp fun hnone => ?_
  simp [firesVComplete, firesV, State.endCompletes, hnone] at h

/-- When `V.COMPLETE` fires in a state of the invariant, the whole payload has been taken (R25(b), R148). -/
theorem complete_of_ok {s : State} (h : s.cur.val.ok s.params.completeTrigger) (hfires : firesVComplete s = true) :
    s.cur.val.messageBuf <<< (8 * s.cur.val.nBuf.toNat) = 0 := by
  obtain ⟨d, hd⟩ := exists_decided_of_firesVComplete hfires
  have hge : 30 + s.cur.val.payloadBits.toNat ≤ s.cur.val.count.toNat := by
    obtain hcomplete | ⟨-, -, -, hlast⟩ := (firesVComplete_iff hd).mp hfires
    · have hcases := phase_cases s.cur.val
      simp only [hcomplete, reduceCtorEq, false_and, false_or, true_and] at hcases
      omega
    · exact (completesAtEnd_iff.mp hlast).2
  obtain ⟨hin, -, -⟩ | ⟨⟨-, -, -, -, -, hmax⟩, -, -⟩ := h
  · obtain ⟨-, -, -, h5, -, hpb, -, hmsg⟩ := (inStep_iff_of_ge (by omega)).mp hin
    rwa [show s.cur.val.count5.toNat = 8 * s.cur.val.nBuf.toNat by omega] at hmsg
  · omega

/-- Settles O53: octet j of the message lies beyond the payload that was taken. -/
theorem emittedMessagesAreZeroFilled : Obligations.EmittedMessagesAreZeroFilled := by
  intro s t hinv hstep hvalid j hlen hj
  obtain ⟨-, hiff, hports, -⟩ := portsShowTheCycle s t hstep
  obtain ⟨hfires, -⟩ := hiff.mp hvalid
  obtain ⟨-, hmsgLen, hmsgData⟩ := hports hvalid
  obtain ⟨⟨-, -, -, hval, -⟩, -⟩ := hinv
  have hclean := (shiftLeft_eq_zero_iff _ _).mp (complete_of_ok hval hfires)
  rw [hmsgLen] at hlen
  rw [hmsgData]
  refine BitVec.eq_of_getMsbD_eq fun k hk => ?_
  rw [getMsbD_extractLsb'_octet _ hj hk]
  have hbeyond : 8 * s.cur.val.nBuf.toNat ≤ 8 * j + k := by
    have : s.cur.val.nBuf.toNat ≤ j := hlen
    omega
  rw [Validator.message, hclean _ hbeyond]
  simp

/-- Settles O55: the Validator reacts only where the two middle samples agree, and its reaction raises at most one
event; in a reset cycle none is raised. -/
theorem atMostOneEventPerPart : Obligations.AtMostOneEventPerPart := by
  intro s t hstep
  obtain ⟨-, hreset⟩ | ⟨-, -, hcycle⟩ | ⟨-, -, -, hfault⟩ := step_cases s
  · obtain rfl : s.resetCycle = t := by simpa [hreset] using hstep
    exact ⟨Nat.zero_le 1, fun h => absurd h Bool.false_ne_true⟩
  · obtain rfl : s.cycleAfter = t := by simpa [hcycle] using hstep
    refine ⟨?_, fun hover => ((accepts_iff s).mp ((firesFTermOversize_iff s).mp hover).1).2.1⟩
    show s.reactionNow.events.ofValidator + (s.groupEnds && s.cur.rx.rxS1 != s.cur.rx.rxS2).toNat ≤ 1
    cases hd : s.decided with
    | none =>
      rw [reactionNow_of_not_decided hd]
      show 0 + _ ≤ 1
      rw [Nat.zero_add]
      exact Bool.toNat_le _
    | some d =>
      obtain ⟨-, -, hpublished⟩ := (decided_eq_some_iff s d).mp hd
      obtain ⟨-, hs1, hs2⟩ := (published_eq_some_iff s d).mp hpublished
      rw [reactionNow_of_decided hd, hs1, hs2, bne_self_eq_false, Bool.and_false]
      exact react_events_le_one s.cur.val d
  · simp [hfault] at hstep

end Sys2Proof.Machine
end

section
/-! PROOFS of the statements about what a part does over one step or several: the Transmitter acts in tick cycles only
(R110), an octet leaves most significant bit first (R117, R47), the queue over a step (R41 to R45), four ticks decide
one bit (R129 to R133), signals that find nothing waiting (R175), and the block without a first line (R217). -/

namespace Sys2Proof.Machine

/-! ### The Transmitter's operations of a cycle (R110) -/

section
variable {s : State}

theorem txHold_lt_or_eq (h : BitVec 2) : h.toNat < 3 ∨ h = 3 := by
  revert h; decide

theorem txOps_of_no_tick (ht : s.tick = false) : txOps s = [] := by
  simp [txOps, firesTxLoad, firesTxHold, firesTxShift, firesTxNext, firesTxIdle, firesTxWait, State.txOctetEnds, ht]

/-- Idle: the load, or the wait on the empty queue (R111, R116). -/
theorem txOps_of_idle (ht : s.tick = true) (hb : s.cur.tx.txBusy = false) :
    txOps s = [if s.queueEmpty then .txWait else .txLoad] := by
  cases hq : s.queueEmpty <;>
    simp [txOps, firesTxLoad, firesTxHold, firesTxShift, firesTxNext, firesTxIdle, firesTxWait, State.txOctetEnds, ht,
      hb, hq]

/-- Busy within a bit (R112). -/
theorem txOps_of_hold (ht : s.tick = true) (hb : s.cur.tx.txBusy = true) (hh : s.cur.tx.txHold.toNat < 3) :
    txOps s = [.txHold] := by
  have hne : ¬ s.cur.tx.txHold = 3#2 := by rintro h; simp [h] at hh
  simp [txOps, firesTxLoad, firesTxHold, firesTxShift, firesTxNext, firesTxIdle, firesTxWait, State.txOctetEnds, ht, hb,
    hh, hne]

/-- Busy at the end of a bit that is not the octet's last (R113). -/
theorem txOps_of_shift (ht : s.tick = true) (hb : s.cur.tx.txBusy = true) (hh : s.cur.tx.txHold = 3)
    (hi : 0 < s.cur.tx.txIdx.toNat) : txOps s = [.txShift] := by
  have hne : ¬ s.cur.tx.txIdx = 0#3 := by rintro h; simp [h] at hi
  simp [txOps, firesTxLoad, firesTxHold, firesTxShift, firesTxNext, firesTxIdle, firesTxWait, State.txOctetEnds, ht, hb,
    hh, hi, hne]

/-- Busy at the end of an octet (R114, R115). -/
theorem txOps_of_octet_end (ht : s.tick = true) (hb : s.cur.tx.txBusy = true) (hh : s.cur.tx.txHold = 3)
    (hi : s.cur.tx.txIdx = 0) : txOps s = [if s.queueEmpty then .txIdle else .txNext] := by
  cases hq : s.queueEmpty <;>
    simp [txOps, firesTxLoad, firesTxHold, firesTxShift, firesTxNext, firesTxIdle, firesTxWait, State.txOctetEnds, ht,
      hb, hh, hi, hq]

/-! ### The Transmitter's registers over a cycle -/

theorem txAfter_of_no_tick (ht : s.tick = false) (x : Transmitter) : s.txAfter x = x := by
  simp [State.txAfter, ht]

theorem txAfter_of_hold (ht : s.tick = true) (hb : s.cur.tx.txBusy = true) (hh : s.cur.tx.txHold.toNat < 3)
    (x : Transmitter) : s.txAfter x = { x with txHold := s.cur.tx.txHold + 1 } := by
  simp [State.txAfter, ht, hb, hh]

theorem txAfter_of_shift (ht : s.tick = true) (hb : s.cur.tx.txBusy = true) (hh : s.cur.tx.txHold = 3)
    (hi : 0 < s.cur.tx.txIdx.toNat) (x : Transmitter) :
    s.txAfter x =
      { x with
        txIdx := s.cur.tx.txIdx - 1
        lineOut := s.cur.tx.txByte.getLsbD (s.cur.tx.txIdx.toNat - 1)
        txHold := 0 } := by
  simp [State.txAfter, ht, hb, hh, hi]

/-- An octet is popped in a tick cycle with the Transmitter idle or at the end of an octet (R111, R114). -/
theorem popNow_iff (s : State) :
    s.popNow = true ↔
      s.cur.q ≠ [] ∧ s.cur.tdiv = s.params.tCycles - 1
      ∧ (s.cur.tx.txBusy = false ∨ (s.cur.tx.txHold = 3 ∧ s.cur.tx.txIdx = 0)) := by
  simp [State.popNow, State.queueEmpty, tick_iff, and_assoc, and_left_comm]

theorem txAfter_of_pop {b : Octet} {bs : List Octet} (hpop : s.popNow = true) (hq : s.cur.q = b :: bs)
    (x : Transmitter) :
    s.txAfter x = { txBusy := true, txByte := b, txIdx := 7, txHold := 0, lineOut := b.getLsbD 7 } := by
  obtain ⟨-, htdiv, hready⟩ := (popNow_iff s).mp hpop
  have ht : s.tick = true := (tick_iff s).mpr htdiv
  obtain hidle | ⟨hhold, hidx⟩ := hready
  · simp [State.txAfter, ht, hidle, hq]
  · simp [State.txAfter, ht, hhold, hidx, hq]

/-- A step that answers with `rst` = 0 pushes only where R95 defines the octet. -/
theorem frameByte_isSome_of_step {t : State} (hrst : s.inp.rst = false) (hstep : step s = .next t) :
    s.pushes = true → s.cur.framer.frameByte.isSome = true := by
  obtain ⟨hreset, -⟩ | ⟨-, hdefined, -⟩ | ⟨-, -, -, hfault⟩ := step_cases s
  · simp [hrst] at hreset
  · exact hdefined
  · simp [hfault] at hstep

/-- A push puts an octet: R95 defines it wherever a step answers. -/
theorem pushNow_isSome (hdefined : s.pushes = true → s.cur.framer.frameByte.isSome = true) :
    s.pushNow.isSome = s.pushes := by
  cases hp : s.pushes with
  | true => simp [State.pushNow, hp, hdefined hp]
  | false => simp [State.pushNow, hp]

end

/-- Settles O14: in a tick cycle the four kinds of Transmitter state select one operation each. -/
theorem transmitterActsOncePerTick : Obligations.TransmitterActsOncePerTick := by
  intro s t hrst hstep
  obtain rfl := eq_cycleAfter_of_step hrst hstep
  refine ⟨fun hno => ?_, fun htdiv => ?_⟩
  · have ht : s.tick = false := Bool.eq_false_iff.mpr fun h => hno ((tick_iff s).mp h)
    exact ⟨txOps_of_no_tick ht, txAfter_of_no_tick ht s.cur.tx⟩
  · have ht : s.tick = true := (tick_iff s).mpr htdiv
    cases hb : s.cur.tx.txBusy with
    | false => exact ⟨_, txOps_of_idle ht hb⟩
    | true =>
      obtain hh | hh := txHold_lt_or_eq s.cur.tx.txHold
      · exact ⟨_, txOps_of_hold ht hb hh⟩
      · obtain hi | hi := Nat.eq_zero_or_pos s.cur.tx.txIdx.toNat
        · exact ⟨_, txOps_of_octet_end ht hb hh (BitVec.eq_of_toNat_eq hi)⟩
        · exact ⟨_, txOps_of_shift ht hb hh hi⟩

/-- Settles O40: what is popped is the head of the queue, what is pushed joins its tail. -/
theorem queueIsFirstInFirstOut : Obligations.QueueIsFirstInFirstOut := by
  intro s t hrst hstep
  have hdefined : s.pushes = true → s.cur.framer.frameByte.isSome = true := frameByte_isSome_of_step hrst hstep
  obtain rfl := eq_cycleAfter_of_step hrst hstep
  have hpushed : s.pushNow.toList ≠ [] ↔ s.cur.framer.fState = .push ∧ s.cur.q.length ≠ s.params.queueDepth := by
    rw [← pushes_iff, ← pushNow_isSome hdefined]
    cases s.pushNow <;> simp
  refine ⟨if s.popNow then s.cur.q.take 1 else [], s.pushNow.toList, ?_, ?_, ?_, ?_, hpushed, ?_⟩
  · show _ = _ ++ ((if s.popNow then s.cur.q.tail else s.cur.q) ++ s.pushNow.toList)
    cases s.popNow <;> cases s.cur.q <;> simp
  · split <;> simp
  · cases s.pushNow <;> simp
  · rw [← popNow_iff]
    cases hpop : s.popNow with
    | false => simp
    | true => simp [((popNow_iff s).mp hpop).1]
  · intro b hb
    cases hpop : s.popNow with
    | false => simp [hpop] at hb
    | true =>
      cases hq : s.cur.q with
      | nil => simp [hq] at hb
      | cons x xs =>
        obtain rfl : b = x := by simpa [hpop, hq] using hb
        show (s.txAfter s.cur.tx).txByte = b ∧ (s.txAfter s.cur.tx).lineOut = b.getLsbD 7
        rw [txAfter_of_pop hpop hq]
        exact ⟨rfl, rfl⟩

/-! ### Several steps -/

theorem steps_succ_of_step {s u : State} (h : step s = .next u) (k : Nat) : steps (k + 1) s = steps k u := by
  simp only [steps, h]

/-- No reset is offered in the cycles to come; past the script's end none is (log entry 3). -/
abbrev State.noReset (s : State) : Prop := ∀ i ∈ s.script, i.rst = false

theorem rst_of_noReset {s : State} (h : s.noReset) : s.inp.rst = false := by
  unfold State.inp
  cases hs : s.script with
  | nil => rfl
  | cons i rest => exact h i (by simp [hs])

theorem cycleAfter_noReset {s : State} (h : s.noReset) : s.cycleAfter.noReset :=
  fun i hi => h i (List.mem_of_mem_tail hi)

/-! ### An octet on the line (R117, R47) -/

theorem succ_div_mod_of_lt {n T : Nat} (h : n % T + 1 < T) : (n + 1) / T = n / T ∧ (n + 1) % T = n % T + 1 := by
  refine (Nat.div_mod_unique (by omega)).mpr ⟨?_, h⟩
  have := Nat.mod_add_div n T
  omega

theorem succ_div_mod_of_eq {n T : Nat} (h : n % T + 1 = T) : (n + 1) / T = n / T + 1 ∧ (n + 1) % T = 0 := by
  refine (Nat.div_mod_unique (by omega)).mpr ⟨?_, by omega⟩
  have := Nat.mod_add_div n T
  rw [Nat.mul_add]
  omega

/-- The Transmitter's registers `m` ticks after the load of `b`: bit 7 - m/4 is on the line, for `m % 4` ticks. -/
def txAt (b : Octet) (m : Nat) : Transmitter :=
  { txBusy := true, txByte := b, txIdx := BitVec.ofNat 3 (7 - m / 4), txHold := BitVec.ofNat 2 (m % 4)
    lineOut := b.getLsbD (7 - m / 4) }

/-- `n` cycles after the load of `b`, `n / T` ticks have passed. -/
structure SendsAt (b : Octet) (n : Nat) (s : State) : Prop where
  tdiv : s.cur.tdiv = n % s.params.tCycles
  tx : s.cur.tx = txAt b (n / s.params.tCycles)

/-- One tick takes the line from one quarter of a bit to the next (R112, R113). -/
theorem txAfter_txAt {s : State} {b : Octet} {m : Nat} (ht : s.tick = true) (htx : s.cur.tx = txAt b m)
    (hm : m + 1 < 32) : s.txAfter s.cur.tx = txAt b (m + 1) := by
  have hbusy : s.cur.tx.txBusy = true := by rw [htx]; rfl
  have hhold : s.cur.tx.txHold.toNat = m % 4 := by rw [htx]; simp [txAt]
  have hidx : s.cur.tx.txIdx.toNat = 7 - m / 4 := by rw [htx]; simp [txAt]; omega
  by_cases hlt : m % 4 < 3
  · have hdiv : (m + 1) / 4 = m / 4 := by omega
    have hmod : (m + 1) % 4 = m % 4 + 1 := by omega
    rw [txAfter_of_hold ht hbusy (by omega), htx]
    simp [txAt, hdiv, hmod, BitVec.ofNat_add]
  · have hlast : s.cur.tx.txHold = 3 := BitVec.eq_of_toNat_eq (by rw [hhold]; simp; omega)
    have hdiv : (m + 1) / 4 = m / 4 + 1 := by omega
    have hmod : (m + 1) % 4 = 0 := by omega
    have hsub : 7 - m / 4 - 1 = 7 - (m / 4 + 1) := by omega
    have hidx' : s.cur.tx.txIdx - 1 = BitVec.ofNat 3 (7 - (m / 4 + 1)) := by
      apply BitVec.eq_of_toNat_eq
      rw [BitVec.toNat_sub_of_le (by rw [BitVec.le_def, hidx]; simp; omega), hidx]
      simp
      omega
    rw [txAfter_of_shift ht hbusy hlast (by omega), hidx', hidx, htx]
    simp [txAt, hdiv, hmod, hsub]

theorem SendsAt.cycleAfter {b : Octet} {n : Nat} {s : State} (h : SendsAt b n s) (hT : 1 ≤ s.params.tCycles)
    (hn : n + 1 < 32 * s.params.tCycles) : SendsAt b (n + 1) s.cycleAfter := by
  obtain ⟨htdiv, htx⟩ := h
  have hlt := Nat.mod_lt n hT
  suffices hnext : s.tdivAfter = (n + 1) % s.params.tCycles
      ∧ s.txAfter s.cur.tx = txAt b ((n + 1) / s.params.tCycles) from ⟨hnext.1, hnext.2⟩
  by_cases htick : n % s.params.tCycles + 1 = s.params.tCycles
  · have ht : s.tick = true := (tick_iff s).mpr (by omega)
    obtain ⟨hdiv, hmod⟩ := succ_div_mod_of_eq htick
    have hm : n / s.params.tCycles + 1 < 32 := by
      rw [← hdiv]
      exact Nat.div_lt_of_lt_mul (by rwa [Nat.mul_comm])
    rw [hdiv, hmod, txAfter_txAt ht htx hm, State.tdivAfter, if_pos ht]
    exact ⟨rfl, rfl⟩
  · have ht : s.tick = false := Bool.eq_false_iff.mpr fun h => htick (by have := (tick_iff s).mp h; omega)
    obtain ⟨hdiv, hmod⟩ := succ_div_mod_of_lt (n := n) (T := s.params.tCycles) (by omega)
    rw [hdiv, hmod, txAfter_of_no_tick ht, State.tdivAfter, if_neg (Bool.eq_false_iff.mp ht), htdiv]
    exact ⟨rfl, htx⟩

/-- The line `k` cycles later, by induction over the steps. -/
theorem steps_of_sendsAt {b : Octet} (k n : Nat) (s : State) (hinv : Inv s) (hT : 1 ≤ s.params.tCycles)
    (hscript : s.noReset) (h : SendsAt b n s) (hn : n + k < 32 * s.params.tCycles) :
    ∃ t, steps k s = some t ∧ t.params = s.params ∧ SendsAt b (n + k) t := by
  induction k generalizing n s with
  | zero => exact ⟨s, rfl, rfl, h⟩
  | succ k ih =>
    have hstep := step_of_inv hinv (rst_of_noReset hscript)
    obtain ⟨t, hrun, hparams, hsends⟩ := ih (n + 1) s.cycleAfter (cycleAfter_inv hinv) hT (cycleAfter_noReset hscript)
      (h.cycleAfter hT (by omega)) (by show n + 1 + k < 32 * s.params.tCycles; omega)
    exact ⟨t, (steps_succ_of_step hstep k).trans hrun, hparams, by rwa [Nat.add_right_comm, Nat.add_assoc] at hsends⟩

/-- Settles O15: the loaded octet is 0 ticks old, and `k` cycles later k / T. -/
theorem octetLeavesMsbFirstInCellsOfFourTicks : Obligations.OctetLeavesMsbFirstInCellsOfFourTicks := by
  intro s b hinv hT htdiv htx hscript k hk
  have hloaded : SendsAt b 0 s := ⟨by rw [htdiv, Nat.zero_mod], by rw [htx, Nat.zero_div]; rfl⟩
  obtain ⟨t, hrun, hparams, -, hline⟩ := steps_of_sendsAt k 0 s hinv hT hscript hloaded (by rwa [Nat.zero_add])
  refine ⟨t, hrun, ?_⟩
  rw [hline, hparams, Nat.zero_add, Nat.mul_comm, ← Nat.div_div_eq_div_mul]
  rfl

/-! ### Four ticks decide one bit (R129 to R133) -/

theorem take_rxStarted (r : Receiver) (b : Bool) : (r.take b).rxStarted = r.rxStarted := by
  unfold Receiver.take; split <;> rfl

theorem take_rxIdx (r : Receiver) (b : Bool) : (r.take b).rxIdx = r.rxIdx + 1 := by
  unfold Receiver.take; split <;> rfl

theorem rxAfter_of_samples {s : State} (h : s.rxSamples = true) : s.rxAfter = s.cur.rx.take s.sample := if_pos h

/-- No message completes away from the end of a group, so a running Receiver goes on running (R149). -/
theorem resetFlagAfter_of_not_groupEnds {s : State} (h : s.groupEnds = false) (hflag : s.cur.resetFlag = false) :
    s.resetFlagAfter = false := by
  rw [State.resetFlagAfter, reactionNow_of_not_decided (decided_of_not_groupEnds h)]
  simp [Reaction.quiet, hflag]

/-- One cycle of a running Receiver, with T one cycle: it takes the level, and runs on unless the group ends. -/
theorem running_step {s : State} {i : Inputs} {rest : List Inputs} {l : Bool} (hinv : Inv s)
    (hT : s.params.tCycles = 1) (hscript : s.script = i :: rest) (hrst : i.rst = false) (hline : i.line = .level l)
    (hstarted : s.cur.rx.rxStarted = true) (hflag : s.cur.resetFlag = false) :
    ∃ u, step s = .next u ∧ Inv u ∧ u.params.tCycles = 1 ∧ u.script = rest ∧ u.cur.rx = s.cur.rx.take l
      ∧ (s.cur.rx.rxIdx ≠ 3 → u.cur.resetFlag = false) := by
  have hinp : s.inp = i := by simp only [State.inp, hscript]
  have htdiv : s.cur.tdiv = s.params.tCycles - 1 := by
    obtain ⟨⟨hle, -⟩, -⟩ := hinv
    omega
  have hsamples : s.rxSamples = true := (rxSamples_iff s).mpr ⟨(tick_iff s).mpr htdiv, hstarted, hflag⟩
  have hsample : s.sample = l := sample_of_level (by rw [hinp, hline])
  refine ⟨s.cycleAfter, step_of_inv hinv (by rw [hinp, hrst]), cycleAfter_inv hinv, hT, ?_, ?_, fun hidx => ?_⟩
  · show s.script.tail = rest
    rw [hscript, List.tail_cons]
  · rw [← hsample]
    exact rxAfter_of_samples hsamples
  · refine resetFlagAfter_of_not_groupEnds (Bool.eq_false_iff.mpr fun h => ?_) hflag
    obtain ⟨-, -, -, hthree⟩ := (groupEnds_iff s).mp h
    exact hidx hthree

/-- Settles O22: four samples taken one a cycle are the group taken at once. -/
theorem fourTicksDecideOneBit : Obligations.FourTicksDecideOneBit := by
  intro s i0 i1 i2 i3 rest a x y b hinv hT hscript hr0 hr1 hr2 hr3 hl0 hl1 hl2 hl3 hstarted hflag hidx
  obtain ⟨s1, hs1, hinv1, hT1, hscript1, hrx1, hflag1⟩ := running_step hinv hT hscript hr0 hl0 hstarted hflag
  have hstarted1 : s1.cur.rx.rxStarted = true := by rw [hrx1, take_rxStarted, hstarted]
  have hidx1 : s1.cur.rx.rxIdx = 1 := by rw [hrx1, take_rxIdx, hidx]; rfl
  obtain ⟨s2, hs2, hinv2, hT2, hscript2, hrx2, hflag2⟩ :=
    running_step hinv1 hT1 hscript1 hr1 hl1 hstarted1 (hflag1 (by rw [hidx]; decide))
  have hstarted2 : s2.cur.rx.rxStarted = true := by rw [hrx2, take_rxStarted, hstarted1]
  have hidx2 : s2.cur.rx.rxIdx = 2 := by rw [hrx2, take_rxIdx, hidx1]; rfl
  obtain ⟨s3, hs3, hinv3, hT3, hscript3, hrx3, hflag3⟩ :=
    running_step hinv2 hT2 hscript2 hr2 hl2 hstarted2 (hflag2 (by rw [hidx1]; decide))
  have hstarted3 : s3.cur.rx.rxStarted = true := by rw [hrx3, take_rxStarted, hstarted2]
  obtain ⟨s4, hs4, -, -, -, hrx4, -⟩ :=
    running_step hinv3 hT3 hscript3 hr3 hl3 hstarted3 (hflag3 (by rw [hidx2]; decide))
  refine ⟨s4, ?_, ?_⟩
  · rw [steps_succ_of_step hs1, steps_succ_of_step hs2, steps_succ_of_step hs3, steps_succ_of_step hs4]
    rfl
  · have hgroup : s4.cur.rx = (s.cur.rx.takeAll [a, x, y, b]).1 := by rw [hrx4, hrx3, hrx2, hrx1]; rfl
    rw [hgroup, takeAll_four hidx, hstarted]

/-! ### Signals that find nothing waiting, and the block at rest -/

/-- Settles O39: the Receiver takes its sample or stands, and only COMPLETE parks and pauses. -/
theorem unawaitedSignalsAreLost : Obligations.UnawaitedSignalsAreLost := by
  intro s t hrst _ hstarted hflag hparked hstep
  obtain rfl := eq_cycleAfter_of_step hrst hstep
  refine ⟨?_, ?_, ?_⟩
  · have hrun : s.rxRunning = true := (rxRunning_iff s).mpr ⟨hstarted, hflag⟩
    show s.rxAfter = _
    simp only [State.rxAfter, State.rxSamples, hrun, Bool.and_true, tick_iff, State.rxPulsed, hstarted, hflag,
      Bool.not_true, Bool.and_false, Bool.false_eq_true, if_false]
  · show s.resetFlagAfter = s.reactionNow.msg.isSome
    rw [State.resetFlagAfter, hflag]
    cases s.reactionNow.msg <;> simp
  · show (s.valPulsed s.reactionNow.val).vParked = s.reactionNow.msg.isSome
    rw [valPulsed_of_not_parked hparked, reactionNow_vParked, hparked, Bool.false_or]

/-- The wires of the reset condition: nothing is accepted, pushed, signalled, sampled, decided or popped (R217). -/
theorem regsAfter_of_rest {s : State} (hcur : s.cur = { Regs.reset with tdiv := s.cur.tdiv })
    (hvalid : s.inp.charValid = false) :
    s.regsAfter = { Regs.reset with tdiv := s.tdivAfter } ∧ s.pushes = false ∧ s.decided = none
    ∧ s.accepts = false := by
  have hframer : s.cur.framer = Framer.reset := by rw [hcur]; rfl
  have hq : s.cur.q = [] := by rw [hcur]; rfl
  have htx : s.cur.tx = Transmitter.reset := by rw [hcur]; rfl
  have hrx : s.cur.rx = Receiver.reset := by rw [hcur]; rfl
  have hval : s.cur.val = Validator.reset := by rw [hcur]; rfl
  have hflag : s.cur.resetFlag = false := by rw [hcur]; rfl
  have hraised : s.sigRaised = false := by simp [State.sigRaised, hframer, Framer.reset]
  have hpushes : s.pushes = false := by simp [State.pushes, hframer, Framer.reset]
  have haccepts : s.accepts = false := by simp [State.accepts, hvalid]
  have hrun : s.rxRunning = false := rxRunning_of_waiting (.inl (by rw [hrx]; rfl))
  have hdecided : s.decided = none := decided_of_not_groupEnds (groupEnds_of_not_running hrun)
  refine ⟨?_, hpushes, hdecided, haccepts⟩
  have hframer' : s.framerAfter s.cur.framer = Framer.reset := by
    simp [State.framerAfter, hraised, haccepts, hpushes, hframer]
  have hq' : s.queueAfter = [] := by simp [State.queueAfter, State.pushNow, hpushes, hq]
  have htx' : s.txAfter s.cur.tx = Transmitter.reset := by simp [State.txAfter, htx, hq, Transmitter.reset]
  have hrx' : s.rxAfter = Receiver.reset := by
    rw [State.rxAfter, if_neg (Bool.eq_false_iff.mp (rxSamples_of_not_running hrun)), State.rxPulsed, hraised, hrx]
    rfl
  have hval' : s.valAfter = Validator.reset := by
    rw [State.valAfter, reactionNow_of_not_decided hdecided, hval]
    simp [State.valPulsed, hraised, Reaction.quiet]
  have hflag' : s.resetFlagAfter = false := resetFlagAfter_of_not_groupEnds (groupEnds_of_not_running hrun) hflag
  rw [State.regsAfter, hframer', hq', htx', hrx', hval', hflag']
  rfl

/-- Settles O47: at rest only the divider moves. -/
theorem nothingHappensUntilAFirstLine : Obligations.NothingHappensUntilAFirstLine := by
  intro s hrst hvalid hcur
  obtain ⟨hregs, hpushes, hdecided, haccepts⟩ := regsAfter_of_rest hcur hvalid
  refine ⟨s.cycleAfter, step_eq s hrst (fun h => by simp [hpushes] at h), ?_, ?_, ?_⟩
  · show s.regsAfter = _
    rw [hregs]
    simp only [State.tdivAfter, tick_iff]
  · show s.reactionNow.msg.isSome = false
    rw [reactionNow_of_not_decided hdecided]
    rfl
  · show firesFTermOversize s = false
    simp [firesFTermOversize, haccepts]

end Sys2Proof.Machine
end

section
/-! PROOFS of the statements about the instructions of a cycle: a step runs what it decodes (00_scope.md section 5),
every instruction of a cycle takes effect in the step (R5, R178), an operation that does not fire changes nothing
(log entry 11), and two boards share only the line (R205). For each part of the block: the instructions it can list in
a cycle, and the one transition they run from the start of it. -/

namespace Sys2Proof.Machine

/-! ### Two boards (R205) -/

/-- Board a steps by itself, with board b's pre-edge `line_out` on its line. -/
theorem pair_step_a {p q : Pair} (h : p.step = .next q) :
    Machine.step (p.a.withLine p.b.cur.tx.lineOut) = .next q.a := by
  unfold Pair.step at h
  split at h
  · rename_i a b ha _
    obtain rfl : { a := a, b := b } = q := by simpa using h
    exact ha
  all_goals simp at h

/-- Settles O56: both runs of board a start from one state with one level on its line. -/
theorem boardsShareOnlyTheLine : Obligations.BoardsShareOnlyTheLine := by
  intro a b b' p p' hline hp hp'
  have ha := pair_step_a hp
  have ha' := pair_step_a hp'
  simp only [hline] at ha
  simpa using ha.symm.trans ha'

/-! ### An operation that does not fire (log entry 11) -/

theorem reactIn_of_not_fires {s : State} {p : Phase} (h : firesV p s = false) (f : Validator → Bool → Reaction) :
    s.reactIn p f = s := by
  unfold State.reactIn
  cases hd : s.decided with
  | none => rfl
  | some d =>
    have hp : s.cur.val.phase ≠ p := by simpa [firesV, hd] using h
    exact if_neg hp

/-- Settles O44: the guard of each operation is its firing condition. -/
theorem operationsThatDoNotFireChangeNothing : Obligations.OperationsThatDoNotFireChangeNothing := by
  intro s
  have guarded {c : Bool} (h : c = false) (u : State) :
      (if c then .next u else .next s : Host.Outcome State Fault Refusal) = .next s :=
    if_neg (Bool.eq_false_iff.mp h)
  have phase {p : Phase} (h : firesV p s = false) (f : Validator → Bool → Reaction) :
      (.next (s.reactIn p f) : Host.Outcome State Fault Refusal) = .next s :=
    congrArg _ (reactIn_of_not_fires h f)
  exact ⟨fun h => guarded h _, fun h => guarded h _, fun h => guarded h _, fun h => guarded h _,
    exec_fPush_of_not_pushes, fun h => guarded h _, fun h => guarded h _, fun h => guarded h _, fun h => guarded h _,
    fun h => guarded h _, fun h => guarded h _, exec_rxSample_of_not_fires, exec_rxDecideAgree_of_not_fires,
    exec_rxDecideDrop_of_not_fires, fun h => phase h _, fun h => phase h _, fun h => phase h _, fun h => phase h _,
    fun h => phase h _, fun h => phase h _, fun h => guarded h _⟩

/-! ### Which instructions a cycle runs -/

theorem mem_decodedAt_iff {p : Place} {w : Octet} {i : Instr} : i ∈ decodedAt p w ↔ decodeAt p w = .ok i := by
  unfold decodedAt
  cases decodeAt p w <;> simp [Except.toOption, eq_comm]

/-- An instruction of a cycle belongs to a part of the block or is a pattern complete in the cycle. -/
theorem mem_cycleOps_iff {s : State} {i : Instr} :
    i ∈ cycleOps s.beginCycle ↔
      i = .tick ∨ i ∈ framerOps s ∨ i ∈ txOps s ∨ i ∈ rxOps s ∨ i ∈ valOps s ∨ i ∈ sigOps s
      ∨ i ∈ charOps s ∨ i ∈ octetOps s ∨ i ∈ groupOps s ∨ i ∈ headerRxOps s ∨ i ∈ endRxOps s := by
  show i ∈ cycleOps s ↔ _
  simp only [cycleOps, patternOps, List.mem_append, List.mem_singleton, or_assoc]

/-! ### An accepted character -/

section
variable {s : State} {i : Instr}

/-- The start of a cycle with what an accepted character writes (R91 to R94). -/
def State.charTaken (s : State) : State :=
  { s.beginCycle with
    nxt := { s.cur with framer := s.framerAfter s.cur.framer }
    out := { s.beginCycle.out with errOversize := firesFTermOversize s }
    events := { Events.none with oversizeLine := firesFTermOversize s } }

theorem sigRaised_of_accepts (h : s.accepts = true) : s.sigRaised = false :=
  sigRaised_of_not_signal (by rw [((accepts_iff s).mp h).2.1]; decide)

theorem beginCycle_takeTerminator (haccepts : s.accepts = true) (hterm : isTerminator s.inp.charData = true) :
    s.beginCycle.takeTerminator = s.charTaken := by
  have hraised := sigRaised_of_accepts haccepts
  have no_event : ({ Events.none with oversizeLine := false } : Events) = Events.none := rfl
  have hout : { s.beginCycle.out with errOversize := false } = s.beginCycle.out := rfl
  by_cases hfits : s.cur.framer.fLen.toNat ≤ 7
  · have hfires : firesFTermOversize s = false := by
      refine Bool.eq_false_iff.mpr fun h => ?_
      obtain ⟨-, -, hlen⟩ := (firesFTermOversize_iff s).mp h
      simp [hlen] at hfits
    rw [takeTerminator_of_fits (s := s.beginCycle) hfits, startPush_eq, State.charTaken, hfires, no_event, hout,
      State.framerAfter, hraised, haccepts, hterm]
    simp only [Bool.false_eq_true, if_false, if_true, if_pos hfits]
    rfl
  · by_cases hlen : s.cur.framer.fLen = 8
    · have hfires : firesFTermOversize s = true := (firesFTermOversize_iff s).mpr ⟨haccepts, hterm, hlen⟩
      rw [takeTerminator_of_oversize (s := s.beginCycle) hlen, rejectLine_eq, State.charTaken, hfires,
        State.framerAfter, hraised, haccepts, hterm]
      simp only [Bool.false_eq_true, if_false, if_true, if_neg hfits, if_pos hlen]
      rfl
    · have hfires : firesFTermOversize s = false :=
        Bool.eq_false_iff.mpr fun h => hlen ((firesFTermOversize_iff s).mp h).2.2
      have htake : s.beginCycle.takeTerminator = s.beginCycle := (if_neg hfits).trans (if_neg hlen)
      rw [htake, State.charTaken, hfires, no_event, hout, State.framerAfter, hraised, haccepts, hterm]
      simp only [Bool.false_eq_true, if_false, if_true, if_neg hfits, if_neg hlen]
      rfl

theorem beginCycle_takeChar (haccepts : s.accepts = true) (hterm : isTerminator s.inp.charData = false) :
    s.beginCycle.takeChar s.inp.charData = s.charTaken := by
  have hraised := sigRaised_of_accepts haccepts
  have hfires : firesFTermOversize s = false := by simp [firesFTermOversize, hterm]
  have no_event : ({ Events.none with oversizeLine := false } : Events) = Events.none := rfl
  have hout : { s.beginCycle.out with errOversize := false } = s.beginCycle.out := rfl
  rw [State.charTaken, hfires, no_event, hout, State.framerAfter, hraised, haccepts, hterm]
  by_cases hroom : s.cur.framer.fLen.toNat ≤ 6
  · rw [takeChar_of_room (s := s.beginCycle) _ hroom, storeChar_eq]
    simp only [Bool.false_eq_true, if_false, if_true, if_pos hroom]
    rfl
  · rw [takeChar_of_full (s := s.beginCycle) _ (by show 7 ≤ s.cur.framer.fLen.toNat; omega), dropChar_eq]
    simp only [Bool.false_eq_true, if_false, if_true, if_neg hroom]
    rfl

/-- The decoded character runs what the Framer does with it (R70, R91 to R94). -/
theorem exec_decoded_char (haccepts : s.accepts = true) (hdec : decodeAt .inputChar s.inp.charData = .ok i) :
    exec i s.beginCycle = .next s.charTaken := by
  have hready : s.beginCycle.charReady = true := (charReady_iff s).mpr ((accepts_iff s).mp haccepts).2
  obtain rfl : decodeChar s.inp.charData = i := Except.ok.inj hdec
  obtain ⟨hterm, hi⟩ | ⟨hterm, hi⟩ := decodeChar_cases s.inp.charData
  · have hrow : decodeChar s.inp.charData = .charLf ∨ decodeChar s.inp.charData = .charCr :=
      hi.imp And.left And.left
    rw [exec_terminator_of_ready hrow hready, beginCycle_takeTerminator haccepts hterm]
  · rw [hi, exec_charOther_of_ready _ hready, beginCycle_takeChar haccepts hterm]

end

/-- Settles O41: what the character writes is what the Framer's registers, its port and its event are after the
step. -/
theorem stepRunsTheDecodedCharacter : Obligations.StepRunsTheDecodedCharacter := by
  intro s i hrst hstate hvalid hdec
  have haccepts : s.accepts = true := (accepts_iff s).mpr ⟨hvalid, hstate, hrst⟩
  have hpushes : s.pushes = false := Bool.eq_false_iff.mpr fun h => by
    simp [((pushes_iff s).mp h).1] at hstate
  have hmem : i ∈ charOps s := by
    rw [charOps, if_pos haccepts]
    exact mem_decodedAt_iff.mpr hdec
  exact ⟨(encodeInvertsDecode _ _ _ hdec).1, mem_cycleOps_iff.mpr (by simp only [hmem, true_or, or_true]),
    s.charTaken, s.cycleAfter, exec_decoded_char haccepts hdec, step_eq s hrst (fun h => by simp [hpushes] at h),
    rfl, rfl, rfl, rfl, rfl, rfl⟩

/-! ### A pushed octet -/

section
variable {s : State} {i : Instr}

/-- The send header that decodes has a length of at most 7, its own. -/
theorem fLen_of_header (l : BitVec 4) (h : idField (0xD0 ||| l.setWidth 8) = Config.idPattern) :
    l.toNat = (lenField (0xD0 ||| l.setWidth 8)).toNat := by
  revert l; decide

/-- The decoded octet runs its push (log entry 7). -/
theorem exec_decoded_octet {p : OctetPlace} {w : Octet} (hpushes : s.pushes = true)
    (hplace : s.cur.framer.place = some p) (hbyte : s.cur.framer.frameByte = some w)
    (hdec : decodeAt (.octet p) w = .ok i) : exec i s = .next (s.emitOctet w) := by
  have hword := hbyte
  simp only [Framer.frameByte, hplace] at hword
  cases p <;> simp only [decodeAt, decodeOctet] at hdec <;> split at hdec <;> cases hdec <;> rename_i hw
  case u => rw [exec_u_of_place hpushes hplace, hw]; rfl
  case sync => rw [exec_sync_of_place hpushes hplace, hw]; rfl
  case stx => rw [exec_stx_of_place hpushes hplace, hw]; rfl
  case header =>
    obtain rfl : 0xD0 ||| s.cur.framer.fLen.setWidth 8 = w := by simpa using hword
    rw [exec_header_of_place hpushes hplace (fLen_of_header _ hw), ← hw, joinHeader_fields]
  case payload => exact exec_payload_of_place hpushes hplace hbyte
  case endMarker => rw [exec_endMarker_of_place hpushes hplace, hw]; rfl

theorem framerAfter_of_pushes (hpushes : s.pushes = true) (f : Framer) :
    s.framerAfter f =
      if s.cur.framer.atEnd then { f with fState := .signal } else { f with fIdx := s.cur.framer.fIdx + 1 } := by
  have hstate := ((pushes_iff s).mp hpushes).1
  have hraised : s.sigRaised = false := sigRaised_of_not_signal (by rw [hstate]; decide)
  have haccepts : s.accepts = false := Bool.eq_false_iff.mpr fun h => by
    simp [((accepts_iff s).mp h).2.1] at hstate
  simp only [State.framerAfter, hraised, haccepts, hpushes, Bool.false_eq_true, if_false, if_true]

theorem queueAfter_getLast? {w : Octet} (hpushes : s.pushes = true) (hbyte : s.cur.framer.frameByte = some w) :
    s.queueAfter.getLast? = some w := by
  simp [State.queueAfter, State.pushNow, hpushes, hbyte]

end

/-- Settles O42: what the octet's row writes is what the Framer's registers and the tail of the queue are after the
step. -/
theorem stepRunsTheDecodedFrameOctet : Obligations.StepRunsTheDecodedFrameOctet := by
  intro s p w i hrst hstate hroom hplace hbyte hdec
  have hpushes : s.pushes = true := (pushes_iff s).mpr ⟨hstate, hroom⟩
  have hmem : i ∈ octetOps s := by
    simp only [octetOps, hpushes, hplace, hbyte]
    exact mem_decodedAt_iff.mpr hdec
  refine ⟨(encodeInvertsDecode _ _ _ hdec).1, mem_cycleOps_iff.mpr (by simp only [hmem, true_or, or_true]),
    s.beginCycle.emitOctet w, s.cycleAfter, exec_decoded_octet (s := s.beginCycle) hpushes hplace hbyte hdec,
    step_eq s hrst (fun _ => by rw [hbyte]; rfl), rfl, framerAfter_of_pushes hpushes _,
    queueAfter_getLast? hpushes hbyte, rfl, rfl, rfl⟩

end Sys2Proof.Machine
end

section
/-! PROOF of StepKeepsWhatEachOperationWrites (R5, R178; log entry 20). `WrittenBy s u` says that whatever `u`, an
operation's next state from the start of the cycle, has changed is as the cycle leaves it. It is shown once for each
transition that some row names, and each part of the block is taken through the instructions that it can list. -/

namespace Sys2Proof.Machine

/-- Every register, request, message port, error port and event that `u` has changed from the start of the cycle is, in
the state after the cycle, as `u` has it. A field that is not given when one is built is one that `u` left alone. -/
structure WrittenBy (s u : State) : Prop where
  tdiv : u.nxt.tdiv = s.cur.tdiv ∨ u.nxt.tdiv = s.tdivAfter := by exact .inl rfl
  framer : u.nxt.framer = s.cur.framer ∨ u.nxt.framer = s.framerAfter s.cur.framer := by exact .inl rfl
  tx : u.nxt.tx = s.cur.tx ∨ u.nxt.tx = s.txAfter s.cur.tx := by exact .inl rfl
  rxStarted : u.nxt.rx.rxStarted = s.cur.rx.rxStarted ∨ u.nxt.rx.rxStarted = s.rxAfter.rxStarted := by exact .inl rfl
  rxIdx : u.nxt.rx.rxIdx = s.cur.rx.rxIdx ∨ u.nxt.rx.rxIdx = s.rxAfter.rxIdx := by exact .inl rfl
  rxS1 : u.nxt.rx.rxS1 = s.cur.rx.rxS1 ∨ u.nxt.rx.rxS1 = s.rxAfter.rxS1 := by exact .inl rfl
  rxS2 : u.nxt.rx.rxS2 = s.cur.rx.rxS2 ∨ u.nxt.rx.rxS2 = s.rxAfter.rxS2 := by exact .inl rfl
  dbit : u.nxt.rx.dbit = s.cur.rx.dbit ∨ u.nxt.rx.dbit = s.rxAfter.dbit := by exact .inl rfl
  val : u.nxt.val = s.cur.val ∨ u.nxt.val = s.valAfter := by exact .inl rfl
  resetFlag : u.nxt.resetFlag = s.cur.resetFlag ∨ u.nxt.resetFlag = s.resetFlagAfter := by exact .inl rfl
  push : ∀ v, u.push = some v → s.queueAfter.getLast? = some v := by exact fun _ h => nomatch h
  pop : u.pop = true → ∃ b, s.cur.q = b :: s.cur.q.tail ∧ (s.txAfter s.cur.tx).txByte = b := by
    exact fun h => absurd h Bool.false_ne_true
  message : u.out.msgValid = true → s.outNow.msgValid = true ∧ s.outNow.msgId = u.out.msgId
      ∧ s.outNow.msgLen = u.out.msgLen ∧ s.outNow.msgData = u.out.msgData := by
    exact fun h => absurd h Bool.false_ne_true
  errOversize : u.out.errOversize = true → s.outNow.errOversize = true := by
    exact fun h => absurd h Bool.false_ne_true
  oversizeLine : u.events.oversizeLine = true → s.eventsNow.oversizeLine = true := by
    exact fun h => absurd h Bool.false_ne_true
  syncMismatch : u.events.syncMismatch = true → s.eventsNow.syncMismatch = true := by
    exact fun h => absurd h Bool.false_ne_true
  stxMismatch : u.events.stxMismatch = true → s.eventsNow.stxMismatch = true := by
    exact fun h => absurd h Bool.false_ne_true
  endMismatch : u.events.endMismatch = true → s.eventsNow.endMismatch = true := by
    exact fun h => absurd h Bool.false_ne_true
  ambiguousSample : u.events.ambiguousSample = true → s.eventsNow.ambiguousSample = true := by
    exact fun h => absurd h Bool.false_ne_true
  validatorIndexFault : u.events.validatorIndexFault = true → s.eventsNow.validatorIndexFault = true := by
    exact fun h => absurd h Bool.false_ne_true

/-- An instruction takes effect in a cycle: its `exec` answers, with a state that the cycle agrees with. -/
def TakesEffect (s : State) (i : Instr) : Prop := ∃ u, exec i s.beginCycle = .next u ∧ WrittenBy s u

section
variable {s : State} {i : Instr}

/-! ### The divider and the operations that change nothing -/

theorem takesEffect_of_unchanged (h : exec i s.beginCycle = .next s.beginCycle) : TakesEffect s i :=
  ⟨s.beginCycle, h, {}⟩

theorem takesEffect_tick : TakesEffect s .tick := ⟨_, exec_tick s.beginCycle, { tdiv := .inr rfl }⟩

/-! ### The Framer (R91 to R98) -/

theorem writtenBy_charTaken (s : State) : WrittenBy s s.charTaken :=
  { framer := .inr rfl, errOversize := fun h => h, oversizeLine := fun h => h }

theorem writtenBy_emitOctet {w : Octet} (hpushes : s.pushes = true) (hbyte : s.cur.framer.frameByte = some w) :
    WrittenBy s (s.beginCycle.emitOctet w) :=
  { framer := .inr (framerAfter_of_pushes hpushes s.cur.framer).symm
    push := fun v hv => by
      obtain rfl : w = v := Option.some.inj hv
      exact queueAfter_getLast? hpushes hbyte }

/-! ### The three signals (R171 to R174) -/

theorem rxSamples_of_waiting (h : s.cur.rx.rxStarted = false ∨ s.cur.resetFlag = true) : s.rxSamples = false :=
  rxSamples_of_not_running (rxRunning_of_waiting h)

theorem rxAfter_of_begin (hraised : s.sigRaised = true) (hwaiting : s.cur.rx.rxStarted = false) :
    s.rxAfter = { s.cur.rx with rxStarted := true, rxIdx := 0 } := by
  simp [State.rxAfter, rxSamples_of_waiting (.inl hwaiting), State.rxPulsed, hraised, hwaiting]

theorem rxAfter_rxIdx_of_restart (hraised : s.sigRaised = true) (hpaused : s.cur.resetFlag = true) :
    s.rxAfter.rxIdx = 0 := by
  cases hstarted : s.cur.rx.rxStarted <;>
    simp [State.rxAfter, rxSamples_of_waiting (.inr hpaused), State.rxPulsed, hraised, hpaused, hstarted]

theorem resetFlagAfter_of_restart (hraised : s.sigRaised = true) (hpaused : s.cur.resetFlag = true) :
    s.resetFlagAfter = false := by
  have hends : s.groupEnds = false := groupEnds_of_not_running (rxRunning_of_waiting (.inr hpaused))
  rw [State.resetFlagAfter, reactionNow_of_not_decided (decided_of_not_groupEnds hends)]
  simp [Reaction.quiet, hraised, hpaused]

theorem valAfter_of_abandon (hraised : s.sigRaised = true) (hparked : s.cur.val.vParked = true) :
    s.valAfter = { s.cur.val with vParked := false } := by
  rw [State.valAfter, reactionNow_of_not_decided (decided_of_waiting (.inl hparked))]
  simp [State.valPulsed, Reaction.quiet, hraised, hparked]

theorem writtenBy_beginSampling (s : State) : WrittenBy s s.beginCycle.beginSampling := by
  cases hraised : s.sigRaised with
  | false => rw [beginSampling_of_not_raised (s := s.beginCycle) hraised]; exact {}
  | true =>
    cases hstarted : s.cur.rx.rxStarted with
    | true => rw [beginSampling_of_started (s := s.beginCycle) hstarted]; exact {}
    | false =>
      rw [beginSampling_of_waiting (s := s.beginCycle) hraised hstarted]
      have hrx := rxAfter_of_begin hraised hstarted
      exact { rxStarted := .inr (by rw [hrx]), rxIdx := .inr (by rw [hrx]) }

theorem writtenBy_abandonWait (s : State) : WrittenBy s s.beginCycle.abandonWait := by
  cases hraised : s.sigRaised with
  | false => rw [abandonWait_of_not_raised (s := s.beginCycle) hraised]; exact {}
  | true =>
    cases hparked : s.cur.val.vParked with
    | false => rw [abandonWait_of_not_parked (s := s.beginCycle) hparked]; exact {}
    | true =>
      rw [abandonWait_of_parked (s := s.beginCycle) hraised hparked]
      exact { val := .inr (valAfter_of_abandon hraised hparked).symm }

theorem writtenBy_restartSampling (s : State) : WrittenBy s s.beginCycle.restartSampling := by
  cases hraised : s.sigRaised with
  | false => rw [restartSampling_of_not_raised (s := s.beginCycle) hraised]; exact {}
  | true =>
    cases hpaused : s.cur.resetFlag with
    | false => rw [restartSampling_of_not_paused (s := s.beginCycle) hpaused]; exact {}
    | true =>
      rw [restartSampling_of_paused (s := s.beginCycle) hraised hpaused]
      exact { rxIdx := .inr (rxAfter_rxIdx_of_restart hraised hpaused).symm
              resetFlag := .inr (resetFlagAfter_of_restart hraised hpaused).symm }

theorem rxPulsed_eq_or (s : State) :
    s.rxPulsed s.cur.rx = s.cur.rx ∨ s.rxPulsed s.cur.rx = s.rxAfter := by
  cases hsamples : s.rxSamples with
  | false => exact .inr (if_neg (Bool.eq_false_iff.mp hsamples)).symm
  | true =>
    obtain ⟨-, hstarted, hflag⟩ := (rxSamples_iff s).mp hsamples
    exact .inl (by simp [State.rxPulsed, hstarted, hflag])

theorem valPulsed_eq_or (s : State) :
    s.valPulsed s.cur.val = s.cur.val ∨ s.valPulsed s.cur.val = s.valAfter := by
  cases hd : s.decided with
  | some d => exact .inl (valPulsed_of_decided s hd _)
  | none => exact .inr (by rw [State.valAfter, reactionNow_of_not_decided hd]; rfl)

theorem resetFlagPulsed_eq_or (s : State) :
    (if s.sigRaised && s.cur.resetFlag then false else s.cur.resetFlag) = s.cur.resetFlag
    ∨ (if s.sigRaised && s.cur.resetFlag then false else s.cur.resetFlag) = s.resetFlagAfter := by
  cases hd : s.decided with
  | some d => exact .inl (by simp [(decided_running s hd).2.2])
  | none => exact .inr (by rw [State.resetFlagAfter, reactionNow_of_not_decided hd]; rfl)

/-- The three signals together: each target is as they leave it, or was left alone. -/
theorem writtenBy_pulseSignals (s : State) : WrittenBy s s.beginCycle.pulseSignals := by
  have hpulse : s.beginCycle.pulseSignals = _ := mid_pulseSignals s s.cur none false s.beginCycle.out Events.none
  rw [hpulse]
  have hrx := rxPulsed_eq_or s
  exact
    { rxStarted := hrx.imp (congrArg Receiver.rxStarted) (congrArg Receiver.rxStarted)
      rxIdx := hrx.imp (congrArg Receiver.rxIdx) (congrArg Receiver.rxIdx)
      rxS1 := hrx.imp (congrArg Receiver.rxS1) (congrArg Receiver.rxS1)
      rxS2 := hrx.imp (congrArg Receiver.rxS2) (congrArg Receiver.rxS2)
      dbit := hrx.imp (congrArg Receiver.dbit) (congrArg Receiver.dbit)
      val := valPulsed_eq_or s
      resetFlag := resetFlagPulsed_eq_or s }

/-- F.SIGNAL adds the Framer's return to the pulse (R98). -/
theorem writtenBy_fSignal (hraised : s.sigRaised = true) :
    WrittenBy s (s.beginCycle.pulseSignals.updFramer fun f => { f with fLen := 0, fState := .accum }) := by
  have hframer : s.framerAfter s.cur.framer = { s.cur.framer with fLen := 0, fState := .accum } := if_pos hraised
  have hpulse : s.beginCycle.pulseSignals = _ := mid_pulseSignals s s.cur none false s.beginCycle.out Events.none
  have hwritten := writtenBy_pulseSignals s
  rw [hpulse] at hwritten ⊢
  exact { hwritten with framer := .inr hframer.symm }

/-! ### The Transmitter (R111 to R116) -/

theorem writtenBy_loadOctet (hpop : s.popNow = true) : WrittenBy s s.beginCycle.loadOctet := by
  cases hq : s.cur.q with
  | nil => exact absurd hq ((popNow_iff s).mp hpop).1
  | cons b bs =>
    rw [loadOctet_writes_every_register (s := s.beginCycle) hq]
    have htx := txAfter_of_pop hpop hq s.cur.tx
    exact { tx := .inr htx.symm, pop := fun _ => ⟨b, by rw [hq]; rfl, by rw [htx]⟩ }

/-- At the end of the last octet the Transmitter goes idle (R115). -/
theorem txAfter_of_idle (hends : s.txOctetEnds = true) (hempty : s.queueEmpty = true) :
    s.txAfter s.cur.tx = { s.cur.tx with txBusy := false } := by
  obtain ⟨ht, hb, hh, hi⟩ := (txOctetEnds_iff s).mp hends
  simp [State.txAfter, ht, hb, hh, hi, (queueEmpty_iff s).mp hempty]

/-! ### The Receiver (R129 to R131) -/

/-- A sample is stored whether or not the group decides; only the decision writes the cell. -/
theorem take_eq_store (r : Receiver) (b : Bool) :
    (r.take b).rxIdx = (r.store r.rxIdx b).rxIdx ∧ (r.take b).rxS1 = (r.store r.rxIdx b).rxS1
    ∧ (r.take b).rxS2 = (r.store r.rxIdx b).rxS2 := by
  unfold Receiver.take
  split <;> exact ⟨rfl, rfl, rfl⟩

theorem writtenBy_rxSample (hsamples : s.rxSamples = true) :
    WrittenBy s (s.beginCycle.updRx fun r => r.store s.cur.rx.rxIdx s.sample) := by
  obtain ⟨hidx, hs1, hs2⟩ := take_eq_store s.cur.rx s.sample
  rw [← rxAfter_of_samples hsamples] at hidx hs1 hs2
  exact { rxIdx := .inr hidx.symm, rxS1 := .inr hs1.symm, rxS2 := .inr hs2.symm }

theorem rxSamples_of_groupEnds (h : s.groupEnds = true) : s.rxSamples = true ∧ s.cur.rx.rxIdx = 3 := by
  simpa [State.groupEnds] using h

theorem writtenBy_publish (hends : s.groupEnds = true) (hagree : s.cur.rx.rxS1 = s.cur.rx.rxS2) :
    WrittenBy s (s.beginCycle.publish s.cur.rx.rxS1) := by
  obtain ⟨hsamples, hidx⟩ := rxSamples_of_groupEnds hends
  have hdbit : s.rxAfter.dbit = s.cur.rx.rxS1 := by
    rw [rxAfter_of_samples hsamples, Receiver.take, if_pos ⟨hidx, hagree⟩]
  exact { dbit := .inr hdbit.symm }

theorem writtenBy_drop (hends : s.groupEnds = true) (hdiffer : s.cur.rx.rxS1 ≠ s.cur.rx.rxS2) :
    WrittenBy s (s.beginCycle.raise { Events.none with ambiguousSample := true }) :=
  { ambiguousSample := fun _ => by simp [State.eventsNow, hends, hdiffer] }

/-- The group that ends in a cycle is its last sample taken (log entry 9). -/
theorem writtenBy_takeGroup (hends : s.groupEnds = true) :
    WrittenBy s (s.beginCycle.takeGroup false s.cur.rx.rxS1 s.cur.rx.rxS2 s.sample) := by
  obtain ⟨hsamples, hidx⟩ := rxSamples_of_groupEnds hends
  obtain ⟨-, hstarted, hflag⟩ := (rxSamples_iff s).mp hsamples
  have hrun : s.beginCycle.rxRunning = true := (rxRunning_iff s).mpr ⟨hstarted, hflag⟩
  have hlast : [false, s.cur.rx.rxS1, s.cur.rx.rxS2, s.sample].drop s.beginCycle.cur.rx.rxIdx.toNat = [s.sample] := by
    show [false, s.cur.rx.rxS1, s.cur.rx.rxS2, s.sample].drop s.cur.rx.rxIdx.toNat = _
    rw [hidx]
    rfl
  have hrx : s.rxAfter = s.cur.rx.take s.sample := rxAfter_of_samples hsamples
  rw [takeGroup_eq, if_pos hrun, hlast]
  exact
    { rxStarted := .inr (by rw [hrx]; rfl), rxIdx := .inr (by rw [hrx]; rfl), rxS1 := .inr (by rw [hrx]; rfl)
      rxS2 := .inr (by rw [hrx]; rfl), dbit := .inr (by rw [hrx]; rfl)
      ambiguousSample := fun h => by
        simpa [Receiver.takeAll, Receiver.drops, Events.merge, Events.none, State.beginCycle, State.eventsNow, hends,
          hidx] using h }

theorem exec_decodeGroup (s0 s1 s2 s3 : Bool) (u : State) :
    exec (decodeGroup s0 s1 s2 s3) u = .next (u.takeGroup s0 s1 s2 s3) := by
  cases s1 <;> cases s2 <;> rfl

/-! ### The Validator (R141 to R149) -/

/-- No reaction raises an event of another part (R190). -/
theorem react_events_of_validator (t : CompleteTrigger) (v : Validator) (d : Bool) :
    (v.react t d).events.oversizeLine = false ∧ (v.react t d).events.ambiguousSample = false := by
  obtain ⟨w, hr, -⟩ | ⟨w, e, he, hr, -⟩ | hr | hr := react_cases (t := t) v d <;> rw [hr]
  · exact ⟨rfl, rfl⟩
  · have hnone : ∀ e ∈ mismatches, e.oversizeLine = false ∧ e.ambiguousSample = false := by decide
    exact hnone e he
  · exact ⟨rfl, rfl⟩
  · exact ⟨rfl, rfl⟩

/-- The message that a reaction emits is on the ports of the cycle (R23). -/
theorem outNow_of_emit (h : (s.beginCycle.out.emit s.reactionNow).msgValid = true) :
    s.outNow.msgValid = true ∧ s.outNow.msgId = (s.beginCycle.out.emit s.reactionNow).msgId
    ∧ s.outNow.msgLen = (s.beginCycle.out.emit s.reactionNow).msgLen
    ∧ s.outNow.msgData = (s.beginCycle.out.emit s.reactionNow).msgData := by
  unfold Outputs.emit State.outNow at *
  cases hmsg : s.reactionNow.msg with
  | none => rw [hmsg] at h; exact absurd h Bool.false_ne_true
  | some m => exact ⟨rfl, rfl, rfl, rfl⟩

theorem emit_errOversize (u : Outputs) (r : Reaction) : (u.emit r).errOversize = u.errOversize := by
  unfold Outputs.emit
  cases r.msg <;> rfl

theorem resetFlag_of_reaction (s : State) :
    (if s.reactionNow.msg.isSome then true else s.cur.resetFlag) = s.cur.resetFlag
    ∨ (if s.reactionNow.msg.isSome then true else s.cur.resetFlag) = s.resetFlagAfter := by
  cases hmsg : s.reactionNow.msg.isSome with
  | false => exact .inl rfl
  | true => exact .inr (by rw [State.resetFlagAfter, hmsg]; rfl)

/-- The reaction to the decided bit takes effect as a whole. -/
theorem writtenBy_reaction {d : Bool} (hd : s.decided = some d) :
    WrittenBy s (s.beginCycle.applyReaction s.reactionNow) := by
  obtain ⟨hover, hambiguous⟩ := react_events_of_validator s.params.completeTrigger s.cur.val d
  rw [← reactionNow_of_decided hd] at hover hambiguous
  have happly : s.beginCycle.applyReaction s.reactionNow = _ :=
    mid_applyReaction s s.cur none false s.beginCycle.out Events.none s.reactionNow
  rw [happly, events_none_merge]
  exact
    { val := .inr (valPulsed_of_decided s hd _).symm
      resetFlag := resetFlag_of_reaction s
      message := outNow_of_emit
      errOversize := fun h => absurd ((emit_errOversize s.beginCycle.out s.reactionNow).symm.trans h) Bool.false_ne_true
      oversizeLine := fun h => absurd (hover.symm.trans h) Bool.false_ne_true
      ambiguousSample := fun h => absurd (hambiguous.symm.trans h) Bool.false_ne_true
      syncMismatch := id, stxMismatch := id, endMismatch := id, validatorIndexFault := id }

theorem takesEffect_of_reaction {d : Bool} {r : Reaction} (hd : s.decided = some d)
    (hr : s.cur.val.react s.params.completeTrigger d = r)
    (h : exec i s.beginCycle = .next (s.beginCycle.applyReaction r)) : TakesEffect s i := by
  rw [← hr, ← reactionNow_of_decided hd] at h
  exact ⟨_, h, writtenBy_reaction hd⟩

theorem exists_decided_of_firesV {p : Phase} (h : firesV p s = true) :
    ∃ d, s.decided = some d ∧ s.cur.val.awake ∧ s.cur.val.phase = p := by
  simp only [firesV, Bool.and_eq_true, Option.isSome_iff_exists, beq_iff_eq] at h
  obtain ⟨⟨d, hd⟩, hp⟩ := h
  exact ⟨d, hd, not_waiting_of_decided s hd, hp⟩

/-- Where `V.COMPLETE` fires, the reaction of the cycle is COMPLETE (R147 to R149). -/
theorem react_of_firesVComplete (h : firesVComplete s = true) :
    ∃ d, s.decided = some d ∧ s.cur.val.react s.params.completeTrigger d = s.cur.val.completeFrame := by
  obtain ⟨d, hd⟩ := exists_decided_of_firesVComplete h
  have hv : s.cur.val.awake := not_waiting_of_decided s hd
  refine ⟨d, hd, ?_⟩
  obtain hp | ⟨hp, hidx, hbit, hlast⟩ := (firesVComplete_iff hd).mp h
  · exact react_of_complete hv hp
  · rw [react_of_endMarker hv hp, reactEnd_of_last_match hidx hbit hlast]

/-! ### Part by part: the instructions of the cycle -/

theorem takesEffect_of_mem_framerOps (hdefined : s.pushes = true → s.cur.framer.frameByte.isSome = true)
    (h : i ∈ framerOps s) : TakesEffect s i := by
  simp only [framerOps, List.mem_append, List.mem_ite_nil_right, List.mem_singleton, or_assoc] at h
  obtain ⟨hf, rfl⟩ | ⟨hf, rfl⟩ | ⟨hf, rfl⟩ | ⟨hf, rfl⟩ | ⟨hf, rfl⟩ | ⟨hf, rfl⟩ | ⟨hf, rfl⟩ := h
  · obtain ⟨haccepts, hterm, hlen⟩ := (firesFChar_iff s).mp hf
    refine ⟨_, exec_fChar_of_fires (s := s.beginCycle) hf, ?_⟩
    rw [← takeChar_of_room (s := s.beginCycle) _ hlen]
    exact beginCycle_takeChar haccepts hterm ▸ writtenBy_charTaken s
  · obtain ⟨haccepts, hterm, hlen⟩ := (firesFCharOver_iff s).mp hf
    refine ⟨_, exec_fCharOver_of_fires (s := s.beginCycle) hf, ?_⟩
    rw [← takeChar_of_full (s := s.beginCycle) s.inp.charData hlen]
    exact beginCycle_takeChar haccepts hterm ▸ writtenBy_charTaken s
  · obtain ⟨haccepts, hterm, hlen⟩ := (firesFTermOk_iff s).mp hf
    refine ⟨_, exec_fTermOk_of_fires (s := s.beginCycle) hf, ?_⟩
    rw [← takeTerminator_of_fits (s := s.beginCycle) hlen]
    exact beginCycle_takeTerminator haccepts hterm ▸ writtenBy_charTaken s
  · obtain ⟨haccepts, hterm, hlen⟩ := (firesFTermOversize_iff s).mp hf
    refine ⟨_, exec_fTermOversize_of_fires (s := s.beginCycle) hf, ?_⟩
    rw [← takeTerminator_of_oversize (s := s.beginCycle) hlen]
    exact beginCycle_takeTerminator haccepts hterm ▸ writtenBy_charTaken s
  · obtain ⟨w, hbyte⟩ := Option.isSome_iff_exists.mp (hdefined hf)
    exact ⟨_, exec_fPush_of_frameByte (s := s.beginCycle) hf hbyte, writtenBy_emitOctet hf hbyte⟩
  · exact takesEffect_of_unchanged (exec_fStall _)
  · exact ⟨_, exec_fSignal_of_sigRaised (s := s.beginCycle) hf, writtenBy_fSignal hf⟩

theorem takesEffect_of_mem_txOps (h : i ∈ txOps s) : TakesEffect s i := by
  simp only [txOps, List.mem_append, List.mem_ite_nil_right, List.mem_singleton, or_assoc] at h
  obtain ⟨hf, rfl⟩ | ⟨hf, rfl⟩ | ⟨hf, rfl⟩ | ⟨hf, rfl⟩ | ⟨hf, rfl⟩ | ⟨-, rfl⟩ := h
  · obtain ⟨ht, hb, hq⟩ := (firesTxLoad_iff s).mp hf
    have hpop : s.popNow = true := by simp [State.popNow, ht, hb, hq]
    exact ⟨_, exec_txLoad_of_fires (s := s.beginCycle) hf, writtenBy_loadOctet hpop⟩
  · obtain ⟨ht, hb, hh⟩ := (firesTxHold_iff s).mp hf
    exact ⟨_, exec_txHold_of_fires (s := s.beginCycle) hf, { tx := .inr (txAfter_of_hold ht hb hh _).symm }⟩
  · obtain ⟨ht, hb, hh, hi⟩ := (firesTxShift_iff s).mp hf
    exact ⟨_, exec_txShift_of_fires (s := s.beginCycle) hf, { tx := .inr (txAfter_of_shift ht hb hh hi _).symm }⟩
  · obtain ⟨hends, hq⟩ := (firesTxNext_iff s).mp hf
    obtain ⟨ht, -, hh, hi⟩ := (txOctetEnds_iff s).mp hends
    have hpop : s.popNow = true := by simp [State.popNow, ht, hh, hi, hq]
    exact ⟨_, exec_txNext_of_fires (s := s.beginCycle) hf, writtenBy_loadOctet hpop⟩
  · obtain ⟨hends, hempty⟩ := (firesTxIdle_iff s).mp hf
    exact ⟨_, exec_txIdle_of_fires (s := s.beginCycle) hf, { tx := .inr (txAfter_of_idle hends hempty).symm }⟩
  · exact takesEffect_of_unchanged (exec_txWait _)

theorem takesEffect_of_mem_rxOps (h : i ∈ rxOps s) : TakesEffect s i := by
  simp only [rxOps, List.mem_append, List.mem_ite_nil_right, List.mem_singleton, or_assoc] at h
  obtain ⟨-, rfl⟩ | ⟨-, rfl⟩ | ⟨-, rfl⟩ | ⟨hf, rfl⟩ | ⟨hf, rfl⟩ | ⟨hf, rfl⟩ := h
  · exact ⟨_, exec_begin_eq (.inr rfl) _, writtenBy_beginSampling s⟩
  · exact takesEffect_of_unchanged (exec_rxPause _)
  · exact ⟨_, exec_restart_eq (.inr rfl) _, writtenBy_restartSampling s⟩
  · exact ⟨_, exec_rxSample_of_fires (s := s.beginCycle) hf, writtenBy_rxSample hf⟩
  · obtain ⟨hends, hagree⟩ : s.groupEnds = true ∧ s.cur.rx.rxS1 = s.cur.rx.rxS2 := by
      simpa [firesRxDecideAgree] using hf
    exact ⟨_, exec_rxDecideAgree_of_fires (s := s.beginCycle) hf, writtenBy_publish hends hagree⟩
  · obtain ⟨hends, hdiffer⟩ : s.groupEnds = true ∧ s.cur.rx.rxS1 ≠ s.cur.rx.rxS2 := by
      simpa [firesRxDecideDrop] using hf
    exact ⟨_, exec_rxDecideDrop_of_fires (s := s.beginCycle) hf, writtenBy_drop hends hdiffer⟩

theorem takesEffect_of_mem_valOps (h : i ∈ valOps s) : TakesEffect s i := by
  simp only [valOps, List.mem_append, List.mem_ite_nil_right, List.mem_singleton, or_assoc] at h
  obtain ⟨hf, rfl⟩ | ⟨hf, rfl⟩ | ⟨hf, rfl⟩ | ⟨hf, rfl⟩ | ⟨hf, rfl⟩ | ⟨hf, rfl⟩ | ⟨hf, rfl⟩ := h
  · obtain ⟨d, hd, hv, hp⟩ := exists_decided_of_firesV hf
    exact takesEffect_of_reaction hd (react_of_sync hv hp) (exec_vSync_of_phase (s := s.beginCycle) hd hp)
  · obtain ⟨d, hd, hv, hp⟩ := exists_decided_of_firesV hf
    exact takesEffect_of_reaction hd (react_of_stx hv hp) (exec_vStx_of_phase (s := s.beginCycle) hd hp)
  · obtain ⟨d, hd, hv, hp⟩ := exists_decided_of_firesV hf
    exact takesEffect_of_reaction hd (react_of_id hv hp) (exec_vId_of_phase (s := s.beginCycle) hd hp)
  · obtain ⟨d, hd, hv, hp⟩ := exists_decided_of_firesV hf
    exact takesEffect_of_reaction hd (react_of_length hv hp) (exec_vLength_of_phase (s := s.beginCycle) hd hp)
  · obtain ⟨d, hd, hv, hp⟩ := exists_decided_of_firesV hf
    exact takesEffect_of_reaction hd (react_of_payload hv hp) (exec_vPayload_of_phase (s := s.beginCycle) hd hp)
  · obtain ⟨d, hd, hv, hp⟩ := exists_decided_of_firesV hf
    exact takesEffect_of_reaction hd (react_of_endMarker hv hp) (exec_vEnd_of_phase (s := s.beginCycle) hd hp)
  · obtain ⟨d, hd, hr⟩ := react_of_firesVComplete hf
    exact takesEffect_of_reaction hd hr (exec_vComplete_of_fires (s := s.beginCycle) hf)

theorem takesEffect_of_mem_sigOps (h : i ∈ sigOps s) : TakesEffect s i := by
  simp only [sigOps, List.mem_ite_nil_right, List.mem_cons, List.not_mem_nil, or_false] at h
  obtain ⟨-, rfl | rfl | rfl | rfl⟩ := h
  · exact ⟨_, exec_sig _, writtenBy_pulseSignals s⟩
  · exact ⟨_, exec_begin_eq (.inl rfl) _, writtenBy_beginSampling s⟩
  · exact ⟨_, exec_sigAbandon _, writtenBy_abandonWait s⟩
  · exact ⟨_, exec_restart_eq (.inl rfl) _, writtenBy_restartSampling s⟩

theorem takesEffect_of_mem_charOps (h : i ∈ charOps s) : TakesEffect s i := by
  simp only [charOps, List.mem_ite_nil_right, mem_decodedAt_iff] at h
  obtain ⟨haccepts, hdec⟩ := h
  exact ⟨_, exec_decoded_char haccepts hdec, writtenBy_charTaken s⟩

theorem takesEffect_of_mem_octetOps (h : i ∈ octetOps s) : TakesEffect s i := by
  unfold octetOps at h
  split at h
  · rename_i p w hpushes hplace hbyte
    have hdec := mem_decodedAt_iff.mp h
    exact ⟨_, exec_decoded_octet (s := s.beginCycle) hpushes hplace hbyte hdec, writtenBy_emitOctet hpushes hbyte⟩
  · simp at h

theorem takesEffect_of_mem_groupOps (h : i ∈ groupOps s) : TakesEffect s i := by
  simp only [groupOps, List.mem_ite_nil_right, mem_decodedAt_iff, decodeAt_groupWord, Except.ok.injEq] at h
  obtain ⟨hends, rfl⟩ := h
  exact ⟨_, exec_decodeGroup _ _ _ _ _, writtenBy_takeGroup hends⟩

/-- The header octet ends with the bit decided now, which is the one bit of it that is left (log entry 8). -/
theorem takesEffect_of_mem_headerRxOps (h : i ∈ headerRxOps s) : TakesEffect s i := by
  unfold headerRxOps at h
  split at h
  · simp at h
  · rename_i d hd
    simp only [List.mem_ite_nil_right, mem_decodedAt_iff] at h
    obtain ⟨hcount, hdec⟩ := h
    obtain rfl : Instr.headerRx s.cur.val.idBuf (setBit 3 s.cur.val.nBuf 2 d) = i :=
      Except.ok.inj ((decodeOctetRx_header _ _).symm.trans hdec)
    have hbit : (joinHeader s.cur.val.idBuf (setBit 3 s.cur.val.nBuf 2 d)).getLsbD 0 = d := by
      have hlast : ∀ (id : BitVec 5) (n : BitVec 3) (d : Bool), (joinHeader id (setBit 3 n 2 d)).getLsbD 0 = d := by
        decide
      exact hlast _ _ d
    refine takesEffect_of_reaction hd rfl ?_
    have hcount7 : s.cur.val.count.toNat = 16 + 7 := by rw [hcount]; rfl
    rw [exec_headerRx_of_within (s := s.beginCycle) hcount7 (by omega), octetBits_last, hbit, feed_single]
    rfl

/-- The end octet ends with the bit decided now, or under `SAME_BIT` with the one before its last (log entry 8). -/
theorem takesEffect_of_mem_endRxOps (h : i ∈ endRxOps s) : TakesEffect s i := by
  unfold endRxOps at h
  split at h
  · simp at h
  · rename_i d hd
    split at h
    · rename_i hcount
      obtain rfl : Instr.endRx d = i :=
        Except.ok.inj ((decodeOctetRx_endMarker d).symm.trans (mem_decodedAt_iff.mp h))
      have hbit : (0b0100001#7 ++ BitVec.ofBool d : Octet).getLsbD 0 = d := by cases d <;> rfl
      refine takesEffect_of_reaction hd rfl ?_
      have hcount7 : s.cur.val.count.toNat = 24 + s.cur.val.payloadBits.toNat + 7 := by omega
      rw [exec_endRx_of_within (s := s.beginCycle) hcount7 (by omega), octetBits_last, hbit, feed_single]
      rfl
    · simp only [List.mem_ite_nil_right, Bool.and_eq_true, beq_iff_eq] at h
      obtain ⟨⟨⟨hend, h6⟩, hcount⟩, hmem⟩ := h
      obtain rfl : Instr.endRx false = i :=
        Except.ok.inj ((decodeOctetRx_endMarker false).symm.trans (mem_decodedAt_iff.mp hmem))
      obtain ⟨d', hd', hr⟩ := react_of_firesVComplete (s := s) (by rw [firesVComplete, hend, Bool.or_true])
      have hidx : s.cur.val.count6.toNat = 6 := by rw [h6]; rfl
      have hfeed := feed_end (t := s.params.completeTrigger) false 0 s.cur.val (not_waiting_of_decided s hd')
        (by omega) (by omega)
      rw [hidx] at hfeed
      refine takesEffect_of_reaction hd' hr ?_
      have hcount6 : s.cur.val.count.toNat = 24 + s.cur.val.payloadBits.toNat + 6 := by omega
      rw [exec_endRx_of_within (s := s.beginCycle) hcount6 (by omega)]
      exact congrArg (fun r => Host.Outcome.next (s.beginCycle.applyReaction r)) hfeed

/-- Every instruction of a cycle takes effect in it. -/
theorem takesEffect_of_mem_cycleOps (hdefined : s.pushes = true → s.cur.framer.frameByte.isSome = true)
    (h : i ∈ cycleOps s.beginCycle) : TakesEffect s i := by
  obtain rfl | h | h | h | h | h | h | h | h | h | h := mem_cycleOps_iff.mp h
  · exact takesEffect_tick
  · exact takesEffect_of_mem_framerOps hdefined h
  · exact takesEffect_of_mem_txOps h
  · exact takesEffect_of_mem_rxOps h
  · exact takesEffect_of_mem_valOps h
  · exact takesEffect_of_mem_sigOps h
  · exact takesEffect_of_mem_charOps h
  · exact takesEffect_of_mem_octetOps h
  · exact takesEffect_of_mem_groupOps h
  · exact takesEffect_of_mem_headerRxOps h
  · exact takesEffect_of_mem_endRxOps h

end

/-- Settles O43: the state after a step with `rst` = 0 is `cycleAfter`, and `WrittenBy` lists the clauses. -/
theorem stepKeepsWhatEachOperationWrites : Obligations.StepKeepsWhatEachOperationWrites := by
  intro s t i hrst hstep hmem
  have hdefined : s.pushes = true → s.cur.framer.frameByte.isSome = true := frameByte_isSome_of_step hrst hstep
  obtain rfl := eq_cycleAfter_of_step hrst hstep
  obtain ⟨u, hexec, hw⟩ := takesEffect_of_mem_cycleOps hdefined hmem
  exact ⟨u, hexec, hw.tdiv, hw.framer, hw.tx, hw.rxStarted, hw.rxIdx, hw.rxS1, hw.rxS2, hw.dbit, hw.val, hw.resetFlag,
    hw.push, hw.pop, hw.message, hw.errOversize, hw.oversizeLine, hw.syncMismatch, hw.stxMismatch, hw.endMismatch,
    hw.ambiguousSample, hw.validatorIndexFault⟩

end Sys2Proof.Machine
end
